-- ==== Sys2Proof/Word.lean ====
section
/-! DEFINITION. The word types of the RVVM RV32IMAC core (XLEN = 32, PALEN = 34; R7, R8). -/

namespace Sys2Proof

/-- One byte, the unit of addressing (R101). -/
abbrev Byte := BitVec 8

/-- One halfword: what one instruction fetch access moves (R102, R170). -/
abbrev Half := BitVec 16

/-- XLEN = 32: register contents, the program counter, virtual addresses (R7). -/
abbrev Word := BitVec 32

/-- 64-bit quantities: `time` and `timecmp` (R72). -/
abbrev DWord := BitVec 64

/-- A 34-bit guest physical address as the walker computes it (R7, R101). -/
abbrev PhysAddr := BitVec 34

/-- A register number, the 5-bit field of an instruction that names x0 to x31 (R173). -/
abbrev Reg := BitVec 5

/-- A 12-bit CSR address (R30). -/
abbrev CsrAddr := BitVec 12

end Sys2Proof
end

