-- ==== Sys2Proof/Syntax.lean ====
section
/-! DEFINITION. The instruction set: one constructor per row of spec/opcode_table.json. Immediates are the byte
offsets and values of the manual at the width their encoding gives them; fields that decode accepts and ignores
(R184) are kept, so that the instruction's bits can be rebuilt. -/

namespace Sys2Proof

/-- The 99 instructions. Register operands are the numbers of x0 to x31; the 3-bit fields of the compressed
formats name x8 to x15 (R178), which `Instr.wellFormed` checks. -/
inductive Instr where
  -- upper immediates: `imm` is the 20-bit value that lands in bits 31:12 (R201, R202)
  | lui (rd : Reg) (imm : BitVec 20)
  | auipc (rd : Reg) (imm : BitVec 20)
  -- control transfer: `off` is the byte offset (R251 to R258)
  | jal (rd : Reg) (off : BitVec 21)
  | jalr (rd rs1 : Reg) (imm : BitVec 12)
  | beq (rs1 rs2 : Reg) (off : BitVec 13)
  | bne (rs1 rs2 : Reg) (off : BitVec 13)
  | blt (rs1 rs2 : Reg) (off : BitVec 13)
  | bge (rs1 rs2 : Reg) (off : BitVec 13)
  | bltu (rs1 rs2 : Reg) (off : BitVec 13)
  | bgeu (rs1 rs2 : Reg) (off : BitVec 13)
  -- loads and stores (R271 to R278)
  | lb (rd rs1 : Reg) (imm : BitVec 12)
  | lh (rd rs1 : Reg) (imm : BitVec 12)
  | lw (rd rs1 : Reg) (imm : BitVec 12)
  | lbu (rd rs1 : Reg) (imm : BitVec 12)
  | lhu (rd rs1 : Reg) (imm : BitVec 12)
  | sb (rs2 rs1 : Reg) (imm : BitVec 12)
  | sh (rs2 rs1 : Reg) (imm : BitVec 12)
  | sw (rs2 rs1 : Reg) (imm : BitVec 12)
  -- register-immediate (R203 to R211)
  | addi (rd rs1 : Reg) (imm : BitVec 12)
  | slti (rd rs1 : Reg) (imm : BitVec 12)
  | sltiu (rd rs1 : Reg) (imm : BitVec 12)
  | xori (rd rs1 : Reg) (imm : BitVec 12)
  | ori (rd rs1 : Reg) (imm : BitVec 12)
  | andi (rd rs1 : Reg) (imm : BitVec 12)
  | slli (rd rs1 : Reg) (shamt : BitVec 5)
  | srli (rd rs1 : Reg) (shamt : BitVec 5)
  | srai (rd rs1 : Reg) (shamt : BitVec 5)
  -- register-register (R212 to R221)
  | add (rd rs1 rs2 : Reg)
  | sub (rd rs1 rs2 : Reg)
  | sll (rd rs1 rs2 : Reg)
  | slt (rd rs1 rs2 : Reg)
  | sltu (rd rs1 rs2 : Reg)
  | xor (rd rs1 rs2 : Reg)
  | srl (rd rs1 rs2 : Reg)
  | sra (rd rs1 rs2 : Reg)
  | or (rd rs1 rs2 : Reg)
  | and (rd rs1 rs2 : Reg)
  -- fences; every field but the opcode and funct3 is ignored (R290, R291)
  | fence (fm pred succ : BitVec 4) (rs1 rd : Reg)
  | fenceI (imm : BitVec 12) (rs1 rd : Reg)
  -- system (R401 to R408)
  | ecall
  | ebreak
  | uret
  | sret
  | mret
  | wfi
  | sfenceVma (rs1 rs2 : Reg)
  -- Zicsr (R412 to R417)
  | csrrw (rd : Reg) (csr : CsrAddr) (rs1 : Reg)
  | csrrs (rd : Reg) (csr : CsrAddr) (rs1 : Reg)
  | csrrc (rd : Reg) (csr : CsrAddr) (rs1 : Reg)
  | csrrwi (rd : Reg) (csr : CsrAddr) (uimm : BitVec 5)
  | csrrsi (rd : Reg) (csr : CsrAddr) (uimm : BitVec 5)
  | csrrci (rd : Reg) (csr : CsrAddr) (uimm : BitVec 5)
  -- M extension (R302 to R309)
  | mul (rd rs1 rs2 : Reg)
  | mulh (rd rs1 rs2 : Reg)
  | mulhsu (rd rs1 rs2 : Reg)
  | mulhu (rd rs1 rs2 : Reg)
  | div (rd rs1 rs2 : Reg)
  | divu (rd rs1 rs2 : Reg)
  | rem (rd rs1 rs2 : Reg)
  | remu (rd rs1 rs2 : Reg)
  -- A extension; `aq` and `rl` are accepted and ignored (R325 to R337)
  | lrW (aq rl : Bool) (rd rs1 : Reg)
  | scW (aq rl : Bool) (rd rs2 rs1 : Reg)
  | amoswapW (aq rl : Bool) (rd rs2 rs1 : Reg)
  | amoaddW (aq rl : Bool) (rd rs2 rs1 : Reg)
  | amoxorW (aq rl : Bool) (rd rs2 rs1 : Reg)
  | amoandW (aq rl : Bool) (rd rs2 rs1 : Reg)
  | amoorW (aq rl : Bool) (rd rs2 rs1 : Reg)
  | amominW (aq rl : Bool) (rd rs2 rs1 : Reg)
  | amomaxW (aq rl : Bool) (rd rs2 rs1 : Reg)
  | amominuW (aq rl : Bool) (rd rs2 rs1 : Reg)
  | amomaxuW (aq rl : Bool) (rd rs2 rs1 : Reg)
  -- C extension (R352 to R379)
  | cIllegal
  | cAddi4spn (rd : Reg) (nzuimm : BitVec 10)
  | cLw (rd rs1 : Reg) (uimm : BitVec 7)
  | cSw (rs2 rs1 : Reg) (uimm : BitVec 7)
  | cNop (imm : BitVec 6)
  | cAddi (rd : Reg) (imm : BitVec 6)
  | cJal (off : BitVec 12)
  | cLi (rd : Reg) (imm : BitVec 6)
  | cAddi16sp (nzimm : BitVec 10)
  | cLui (rd : Reg) (nzimm : BitVec 6)
  | cSrli (rd : Reg) (shamt : BitVec 5)
  | cSrai (rd : Reg) (shamt : BitVec 5)
  | cAndi (rd : Reg) (imm : BitVec 6)
  | cSub (rd rs2 : Reg)
  | cXor (rd rs2 : Reg)
  | cOr (rd rs2 : Reg)
  | cAnd (rd rs2 : Reg)
  | cJ (off : BitVec 12)
  | cBeqz (rs1 : Reg) (off : BitVec 9)
  | cBnez (rs1 : Reg) (off : BitVec 9)
  | cSlli (rd : Reg) (shamt : BitVec 5)
  | cLwsp (rd : Reg) (uimm : BitVec 8)
  | cJr (rs1 : Reg)
  | cMv (rd rs2 : Reg)
  | cEbreak
  | cJalr (rs1 : Reg)
  | cAdd (rd rs2 : Reg)
  | cSwsp (rs2 : Reg) (uimm : BitVec 8)
  deriving DecidableEq, Repr

end Sys2Proof
end

