-- ==== Sys2Proof/WellFormed.lean ====
section
/-! DEFINITION. Which terms of `Instr` stand for an instruction of the machine: the side conditions the encodings
put on operands (even offsets, scaled offsets, x8 to x15, non-zero immediates, excluded registers). -/

namespace Sys2Proof

/-- The register numbers a 3-bit field can name: x8 to x15 (R178). -/
def Reg.isCompressed (r : Reg) : Bool := r.extractLsb' 3 2 = 1#2

/-- An offset whose low `k` bits are zero: a multiple of 2^k. -/
def offsetAligned {w : Nat} (off : BitVec w) (k : Nat) : Bool := off.extractLsb' 0 k = 0#k

/-- The checks, constructor by constructor. -/
def Instr.wellFormed : Instr → Bool
  | .jal _ off => offsetAligned off 1
  | .beq _ _ off => offsetAligned off 1
  | .bne _ _ off => offsetAligned off 1
  | .blt _ _ off => offsetAligned off 1
  | .bge _ _ off => offsetAligned off 1
  | .bltu _ _ off => offsetAligned off 1
  | .bgeu _ _ off => offsetAligned off 1
  | .cAddi4spn rd nzuimm => rd.isCompressed && offsetAligned nzuimm 2 && nzuimm != 0#10
  | .cLw rd rs1 uimm => rd.isCompressed && rs1.isCompressed && offsetAligned uimm 2
  | .cSw rs2 rs1 uimm => rs2.isCompressed && rs1.isCompressed && offsetAligned uimm 2
  | .cAddi rd _ => rd != 0#5
  | .cJal off => offsetAligned off 1
  | .cAddi16sp nzimm => offsetAligned nzimm 4 && nzimm != 0#10
  | .cLui rd nzimm => rd != 2#5 && nzimm != 0#6
  | .cSrli rd _ => rd.isCompressed
  | .cSrai rd _ => rd.isCompressed
  | .cAndi rd _ => rd.isCompressed
  | .cSub rd rs2 => rd.isCompressed && rs2.isCompressed
  | .cXor rd rs2 => rd.isCompressed && rs2.isCompressed
  | .cOr rd rs2 => rd.isCompressed && rs2.isCompressed
  | .cAnd rd rs2 => rd.isCompressed && rs2.isCompressed
  | .cJ off => offsetAligned off 1
  | .cBeqz rs1 off => rs1.isCompressed && offsetAligned off 1
  | .cBnez rs1 off => rs1.isCompressed && offsetAligned off 1
  | .cLwsp rd uimm => rd != 0#5 && offsetAligned uimm 2
  | .cJr rs1 => rs1 != 0#5
  | .cMv _ rs2 => rs2 != 0#5
  | .cJalr rs1 => rs1 != 0#5
  | .cAdd _ rs2 => rs2 != 0#5
  | .cSwsp _ uimm => offsetAligned uimm 2
  | .lui .. | .auipc .. | .jalr .. | .lb .. | .lh .. | .lw .. | .lbu .. | .lhu .. | .sb .. | .sh .. | .sw ..
  | .addi .. | .slti .. | .sltiu .. | .xori .. | .ori .. | .andi .. | .slli .. | .srli .. | .srai ..
  | .add .. | .sub .. | .sll .. | .slt .. | .sltu .. | .xor .. | .srl .. | .sra .. | .or .. | .and ..
  | .fence .. | .fenceI .. | .ecall | .ebreak | .uret | .sret | .mret | .wfi | .sfenceVma ..
  | .csrrw .. | .csrrs .. | .csrrc .. | .csrrwi .. | .csrrsi .. | .csrrci ..
  | .mul .. | .mulh .. | .mulhsu .. | .mulhu .. | .div .. | .divu .. | .rem .. | .remu ..
  | .lrW .. | .scW .. | .amoswapW .. | .amoaddW .. | .amoxorW .. | .amoandW .. | .amoorW .. | .amominW ..
  | .amomaxW .. | .amominuW .. | .amomaxuW ..
  | .cIllegal | .cNop .. | .cLi .. | .cSlli .. | .cEbreak => true

end Sys2Proof
end

