-- ==== Sys2Proof/Decode.lean ====
section
/-! DEFINITION. Decoding, total on any bytes and rejecting by name, and the encoder written from the same encoding
tables: the six 32-bit formats (R173, R174), the opcode map (R177, R179), the nine 16-bit formats (R175, R178), the
compressed map and immediates (R183, R352 to R378), the illegal encodings (R180, R182, R379). -/

namespace Sys2Proof

/-- The raw bits of one instruction: exactly two lengths exist (R171). -/
inductive RawInsn where
  | half (h : Half)
  | word (w : Word)
  deriving DecidableEq, Repr

/-- Instruction length in bytes: what an instruction that does not assign pc adds to it (R10). -/
def RawInsn.len : RawInsn → Word
  | .half _ => 2#32
  | .word _ => 4#32

/-- The bits as the 32-bit `tval` of an illegal instruction: a halfword is zero-extended (R180). -/
def RawInsn.bits : RawInsn → Word
  | .half h => h.zeroExtend 32
  | .word w => w

/-- Why bits stand for no instruction. Each raises IllegalInstruction when executed (R180), but `truncated`, which
only a byte list too short to hold an instruction gives. -/
inductive Reject where
  /-- fewer bytes than the instruction has -/
  | truncated
  /-- `insn[6:2]` is not one of the implemented major opcodes (R177) -/
  | majorOpcode
  /-- funct3, funct7 or funct5 is not listed for the major opcode (R177, R223, R259, R279, R292, R311, R338) -/
  | functField
  /-- SYSTEM with funct3 000 and a word not listed (R179, R419) -/
  | systemWord
  /-- a compressed floating-point load or store (R183) -/
  | compressedFloat
  /-- a reserved compressed encoding (R182, R379) -/
  | compressedReserved
  deriving DecidableEq, Repr

/-! ## Fields and immediates of the 32-bit formats (R173, R174) -/

def fOpcode (w : Word) : BitVec 7 := w.extractLsb' 0 7
def fRd (w : Word) : Reg := w.extractLsb' 7 5
def fFunct3 (w : Word) : BitVec 3 := w.extractLsb' 12 3
def fRs1 (w : Word) : Reg := w.extractLsb' 15 5
def fRs2 (w : Word) : Reg := w.extractLsb' 20 5
def fFunct7 (w : Word) : BitVec 7 := w.extractLsb' 25 7
def fFunct5 (w : Word) : BitVec 5 := w.extractLsb' 27 5
def fAq (w : Word) : Bool := w.getLsbD 26
def fRl (w : Word) : Bool := w.getLsbD 25
def fCsr (w : Word) : CsrAddr := w.extractLsb' 20 12

/-- insn[31:20] -/
def immI (w : Word) : BitVec 12 := w.extractLsb' 20 12

/-- {insn[31:25], insn[11:7]} -/
def immS (w : Word) : BitVec 12 := w.extractLsb' 25 7 ++ w.extractLsb' 7 5

/-- {insn[31], insn[7], insn[30:25], insn[11:8], 0} -/
def immB (w : Word) : BitVec 13 :=
  w.extractLsb' 31 1 ++ w.extractLsb' 7 1 ++ w.extractLsb' 25 6 ++ w.extractLsb' 8 4 ++ 0#1

/-- insn[31:12] -/
def immU (w : Word) : BitVec 20 := w.extractLsb' 12 20

/-- {insn[31], insn[19:12], insn[20], insn[30:21], 0} -/
def immJ (w : Word) : BitVec 21 :=
  w.extractLsb' 31 1 ++ w.extractLsb' 12 8 ++ w.extractLsb' 20 1 ++ w.extractLsb' 21 10 ++ 0#1

/-! ## The 32-bit decoder: the major opcode selects, funct3 and funct7 refine (R177) -/

/-- LOAD (R271 to R275, R279). -/
def decodeLoad (w : Word) : Except Reject Instr :=
  match fFunct3 w with
  | 0b000#3 => .ok (.lb (fRd w) (fRs1 w) (immI w))
  | 0b001#3 => .ok (.lh (fRd w) (fRs1 w) (immI w))
  | 0b010#3 => .ok (.lw (fRd w) (fRs1 w) (immI w))
  | 0b100#3 => .ok (.lbu (fRd w) (fRs1 w) (immI w))
  | 0b101#3 => .ok (.lhu (fRd w) (fRs1 w) (immI w))
  | _ => .error .functField

/-- MISC-MEM (R290 to R292). -/
def decodeMiscMem (w : Word) : Except Reject Instr :=
  match fFunct3 w with
  | 0b000#3 => .ok (.fence (w.extractLsb' 28 4) (w.extractLsb' 24 4) (w.extractLsb' 20 4) (fRs1 w) (fRd w))
  | 0b001#3 => .ok (.fenceI (immI w) (fRs1 w) (fRd w))
  | _ => .error .functField

/-- OP-IMM (R203 to R211). -/
def decodeOpImm (w : Word) : Except Reject Instr :=
  match fFunct3 w with
  | 0b000#3 => .ok (.addi (fRd w) (fRs1 w) (immI w))
  | 0b010#3 => .ok (.slti (fRd w) (fRs1 w) (immI w))
  | 0b011#3 => .ok (.sltiu (fRd w) (fRs1 w) (immI w))
  | 0b100#3 => .ok (.xori (fRd w) (fRs1 w) (immI w))
  | 0b110#3 => .ok (.ori (fRd w) (fRs1 w) (immI w))
  | 0b111#3 => .ok (.andi (fRd w) (fRs1 w) (immI w))
  | 0b001#3 =>
    match fFunct7 w with
    | 0b0000000#7 => .ok (.slli (fRd w) (fRs1 w) (fRs2 w))
    | _ => .error .functField
  | _ =>
    match fFunct7 w with
    | 0b0000000#7 => .ok (.srli (fRd w) (fRs1 w) (fRs2 w))
    | 0b0100000#7 => .ok (.srai (fRd w) (fRs1 w) (fRs2 w))
    | _ => .error .functField

/-- STORE (R276 to R279). -/
def decodeStore (w : Word) : Except Reject Instr :=
  match fFunct3 w with
  | 0b000#3 => .ok (.sb (fRs2 w) (fRs1 w) (immS w))
  | 0b001#3 => .ok (.sh (fRs2 w) (fRs1 w) (immS w))
  | 0b010#3 => .ok (.sw (fRs2 w) (fRs1 w) (immS w))
  | _ => .error .functField

/-- AMO, funct3 010 only, by funct5 (R325, R338). -/
def decodeAmo (w : Word) : Except Reject Instr :=
  match fFunct3 w with
  | 0b010#3 =>
    match fFunct5 w with
    | 0b00010#5 =>
      if fRs2 w = 0#5 then .ok (.lrW (fAq w) (fRl w) (fRd w) (fRs1 w)) else .error .functField
    | 0b00011#5 => .ok (.scW (fAq w) (fRl w) (fRd w) (fRs2 w) (fRs1 w))
    | 0b00001#5 => .ok (.amoswapW (fAq w) (fRl w) (fRd w) (fRs2 w) (fRs1 w))
    | 0b00000#5 => .ok (.amoaddW (fAq w) (fRl w) (fRd w) (fRs2 w) (fRs1 w))
    | 0b00100#5 => .ok (.amoxorW (fAq w) (fRl w) (fRd w) (fRs2 w) (fRs1 w))
    | 0b01100#5 => .ok (.amoandW (fAq w) (fRl w) (fRd w) (fRs2 w) (fRs1 w))
    | 0b01000#5 => .ok (.amoorW (fAq w) (fRl w) (fRd w) (fRs2 w) (fRs1 w))
    | 0b10000#5 => .ok (.amominW (fAq w) (fRl w) (fRd w) (fRs2 w) (fRs1 w))
    | 0b10100#5 => .ok (.amomaxW (fAq w) (fRl w) (fRd w) (fRs2 w) (fRs1 w))
    | 0b11000#5 => .ok (.amominuW (fAq w) (fRl w) (fRd w) (fRs2 w) (fRs1 w))
    | 0b11100#5 => .ok (.amomaxuW (fAq w) (fRl w) (fRd w) (fRs2 w) (fRs1 w))
    | _ => .error .functField
  | _ => .error .functField

/-- OP (R212 to R221, R223, R302 to R309, R311). -/
def decodeOp (w : Word) : Except Reject Instr :=
  match fFunct7 w, fFunct3 w with
  | 0b0000000#7, 0b000#3 => .ok (.add (fRd w) (fRs1 w) (fRs2 w))
  | 0b0000000#7, 0b001#3 => .ok (.sll (fRd w) (fRs1 w) (fRs2 w))
  | 0b0000000#7, 0b010#3 => .ok (.slt (fRd w) (fRs1 w) (fRs2 w))
  | 0b0000000#7, 0b011#3 => .ok (.sltu (fRd w) (fRs1 w) (fRs2 w))
  | 0b0000000#7, 0b100#3 => .ok (.xor (fRd w) (fRs1 w) (fRs2 w))
  | 0b0000000#7, 0b101#3 => .ok (.srl (fRd w) (fRs1 w) (fRs2 w))
  | 0b0000000#7, 0b110#3 => .ok (.or (fRd w) (fRs1 w) (fRs2 w))
  | 0b0000000#7, 0b111#3 => .ok (.and (fRd w) (fRs1 w) (fRs2 w))
  | 0b0100000#7, 0b000#3 => .ok (.sub (fRd w) (fRs1 w) (fRs2 w))
  | 0b0100000#7, 0b101#3 => .ok (.sra (fRd w) (fRs1 w) (fRs2 w))
  | 0b0000001#7, 0b000#3 => .ok (.mul (fRd w) (fRs1 w) (fRs2 w))
  | 0b0000001#7, 0b001#3 => .ok (.mulh (fRd w) (fRs1 w) (fRs2 w))
  | 0b0000001#7, 0b010#3 => .ok (.mulhsu (fRd w) (fRs1 w) (fRs2 w))
  | 0b0000001#7, 0b011#3 => .ok (.mulhu (fRd w) (fRs1 w) (fRs2 w))
  | 0b0000001#7, 0b100#3 => .ok (.div (fRd w) (fRs1 w) (fRs2 w))
  | 0b0000001#7, 0b101#3 => .ok (.divu (fRd w) (fRs1 w) (fRs2 w))
  | 0b0000001#7, 0b110#3 => .ok (.rem (fRd w) (fRs1 w) (fRs2 w))
  | 0b0000001#7, 0b111#3 => .ok (.remu (fRd w) (fRs1 w) (fRs2 w))
  | _, _ => .error .functField

/-- BRANCH (R253 to R259). -/
def decodeBranch (w : Word) : Except Reject Instr :=
  match fFunct3 w with
  | 0b000#3 => .ok (.beq (fRs1 w) (fRs2 w) (immB w))
  | 0b001#3 => .ok (.bne (fRs1 w) (fRs2 w) (immB w))
  | 0b100#3 => .ok (.blt (fRs1 w) (fRs2 w) (immB w))
  | 0b101#3 => .ok (.bge (fRs1 w) (fRs2 w) (immB w))
  | 0b110#3 => .ok (.bltu (fRs1 w) (fRs2 w) (immB w))
  | 0b111#3 => .ok (.bgeu (fRs1 w) (fRs2 w) (immB w))
  | _ => .error .functField

/-- SYSTEM with funct3 000: the whole word decides (R179, R419). -/
def decodeSystemWord (w : Word) : Except Reject Instr :=
  if w = 0x00000073#32 then .ok .ecall
  else if w = 0x00100073#32 then .ok .ebreak
  else if w = 0x00200073#32 then .ok .uret
  else if w = 0x10200073#32 then .ok .sret
  else if w = 0x30200073#32 then .ok .mret
  else if w = 0x10500073#32 then .ok .wfi
  else if fFunct7 w = 0b0001001#7 ∧ fRd w = 0#5 then .ok (.sfenceVma (fRs1 w) (fRs2 w))
  else .error .systemWord

/-- SYSTEM (R177, R411, R419). -/
def decodeSystem (w : Word) : Except Reject Instr :=
  match fFunct3 w with
  | 0b000#3 => decodeSystemWord w
  | 0b001#3 => .ok (.csrrw (fRd w) (fCsr w) (fRs1 w))
  | 0b010#3 => .ok (.csrrs (fRd w) (fCsr w) (fRs1 w))
  | 0b011#3 => .ok (.csrrc (fRd w) (fCsr w) (fRs1 w))
  | 0b101#3 => .ok (.csrrwi (fRd w) (fCsr w) (fRs1 w))
  | 0b110#3 => .ok (.csrrsi (fRd w) (fCsr w) (fRs1 w))
  | 0b111#3 => .ok (.csrrci (fRd w) (fCsr w) (fRs1 w))
  | _ => .error .functField

/-- A 32-bit instruction, whose low two bits are 11 (R177). -/
def decode32 (w : Word) : Except Reject Instr :=
  match fOpcode w with
  | 0b0000011#7 => decodeLoad w
  | 0b0001111#7 => decodeMiscMem w
  | 0b0010011#7 => decodeOpImm w
  | 0b0010111#7 => .ok (.auipc (fRd w) (immU w))
  | 0b0100011#7 => decodeStore w
  | 0b0101111#7 => decodeAmo w
  | 0b0110011#7 => decodeOp w
  | 0b0110111#7 => .ok (.lui (fRd w) (immU w))
  | 0b1100011#7 => decodeBranch w
  | 0b1100111#7 =>
    match fFunct3 w with
    | 0b000#3 => .ok (.jalr (fRd w) (fRs1 w) (immI w))
    | _ => .error .functField
  | 0b1101111#7 => .ok (.jal (fRd w) (immJ w))
  | 0b1110011#7 => decodeSystem w
  | _ => .error .majorOpcode

/-! ## Fields and immediates of the 16-bit formats (R175, R178, R352 to R378) -/

def cQuadrant (h : Half) : BitVec 2 := h.extractLsb' 0 2
def cFunct3 (h : Half) : BitVec 3 := h.extractLsb' 13 3
/-- h[12] -/
def cBit12 (h : Half) : BitVec 1 := h.extractLsb' 12 1
/-- The full-width rd/rs1 field, h[11:7]. -/
def cRd (h : Half) : Reg := h.extractLsb' 7 5
/-- The full-width rs2 field, h[6:2]. -/
def cRs2 (h : Half) : Reg := h.extractLsb' 2 5
/-- rd' or rs2' in h[4:2]: register 8 + field (R178). -/
def cLow (h : Half) : Reg := 1#2 ++ h.extractLsb' 2 3
/-- rs1' or rd' in h[9:7]: register 8 + field (R178). -/
def cHigh (h : Half) : Reg := 1#2 ++ h.extractLsb' 7 3
/-- {h[12], h[6:2]}: the 6-bit immediate of the CI and CB forms. -/
def cImm6 (h : Half) : BitVec 6 := h.extractLsb' 12 1 ++ h.extractLsb' 2 5
/-- {h[10:7], h[12:11], h[5], h[6], 00} (R352) -/
def cImmSpn (h : Half) : BitVec 10 :=
  h.extractLsb' 7 4 ++ h.extractLsb' 11 2 ++ h.extractLsb' 5 1 ++ h.extractLsb' 6 1 ++ 0#2
/-- {h[5], h[12:10], h[6], 00} (R353, R354) -/
def cImmLs (h : Half) : BitVec 7 := h.extractLsb' 5 1 ++ h.extractLsb' 10 3 ++ h.extractLsb' 6 1 ++ 0#2
/-- {h[12], h[8], h[10:9], h[6], h[7], h[2], h[11], h[5:3], 0} (R357, R368) -/
def cImmJ (h : Half) : BitVec 12 :=
  h.extractLsb' 12 1 ++ h.extractLsb' 8 1 ++ h.extractLsb' 9 2 ++ h.extractLsb' 6 1 ++ h.extractLsb' 7 1
    ++ h.extractLsb' 2 1 ++ h.extractLsb' 11 1 ++ h.extractLsb' 3 3 ++ 0#1
/-- {h[12], h[4:3], h[5], h[2], h[6], 0000} (R359) -/
def cImm16sp (h : Half) : BitVec 10 :=
  h.extractLsb' 12 1 ++ h.extractLsb' 3 2 ++ h.extractLsb' 5 1 ++ h.extractLsb' 2 1 ++ h.extractLsb' 6 1 ++ 0#4
/-- {h[12], h[6:5], h[2], h[11:10], h[4:3], 0} (R369, R370) -/
def cImmB (h : Half) : BitVec 9 :=
  h.extractLsb' 12 1 ++ h.extractLsb' 5 2 ++ h.extractLsb' 2 1 ++ h.extractLsb' 10 2 ++ h.extractLsb' 3 2 ++ 0#1
/-- {h[3:2], h[12], h[6:4], 00} (R372) -/
def cImmLwsp (h : Half) : BitVec 8 := h.extractLsb' 2 2 ++ h.extractLsb' 12 1 ++ h.extractLsb' 4 3 ++ 0#2
/-- {h[8:7], h[12:9], 00} (R378) -/
def cImmSwsp (h : Half) : BitVec 8 := h.extractLsb' 7 2 ++ h.extractLsb' 9 4 ++ 0#2

/-! ## The 16-bit decoder (R183, R379, R380) -/

/-- Quadrant 00. -/
def decodeQ0 (h : Half) : Except Reject Instr :=
  match cFunct3 h with
  | 0b000#3 =>
    if h = 0#16 then .ok .cIllegal
    else if cImmSpn h = 0#10 then .error .compressedReserved
    else .ok (.cAddi4spn (cLow h) (cImmSpn h))
  | 0b010#3 => .ok (.cLw (cLow h) (cHigh h) (cImmLs h))
  | 0b110#3 => .ok (.cSw (cLow h) (cHigh h) (cImmLs h))
  | 0b100#3 => .error .compressedReserved
  | _ => .error .compressedFloat

/-- Quadrant 01, funct3 100: by h[11:10], h[12] and h[6:5] (R361 to R367). -/
def decodeQ1Alu (h : Half) : Except Reject Instr :=
  match h.extractLsb' 10 2 with
  | 0b00#2 =>
    if cBit12 h = 0#1 then .ok (.cSrli (cHigh h) (cRs2 h)) else .error .compressedReserved
  | 0b01#2 =>
    if cBit12 h = 0#1 then .ok (.cSrai (cHigh h) (cRs2 h)) else .error .compressedReserved
  | 0b10#2 => .ok (.cAndi (cHigh h) (cImm6 h))
  | _ =>
    if cBit12 h = 0#1 then
      match h.extractLsb' 5 2 with
      | 0b00#2 => .ok (.cSub (cHigh h) (cLow h))
      | 0b01#2 => .ok (.cXor (cHigh h) (cLow h))
      | 0b10#2 => .ok (.cOr (cHigh h) (cLow h))
      | _ => .ok (.cAnd (cHigh h) (cLow h))
    else .error .compressedReserved

/-- Quadrant 01. -/
def decodeQ1 (h : Half) : Except Reject Instr :=
  match cFunct3 h with
  | 0b000#3 => if cRd h = 0#5 then .ok (.cNop (cImm6 h)) else .ok (.cAddi (cRd h) (cImm6 h))
  | 0b001#3 => .ok (.cJal (cImmJ h))
  | 0b010#3 => .ok (.cLi (cRd h) (cImm6 h))
  | 0b011#3 =>
    if cImm6 h = 0#6 then .error .compressedReserved
    else if cRd h = 2#5 then .ok (.cAddi16sp (cImm16sp h))
    else .ok (.cLui (cRd h) (cImm6 h))
  | 0b100#3 => decodeQ1Alu h
  | 0b101#3 => .ok (.cJ (cImmJ h))
  | 0b110#3 => .ok (.cBeqz (cHigh h) (cImmB h))
  | _ => .ok (.cBnez (cHigh h) (cImmB h))

/-- Quadrant 10, funct3 100: by h[12], rs1 and rs2 (R373 to R377). -/
def decodeQ2Jump (h : Half) : Except Reject Instr :=
  if cBit12 h = 0#1 then
    if cRs2 h = 0#5 then
      if cRd h = 0#5 then .error .compressedReserved else .ok (.cJr (cRd h))
    else .ok (.cMv (cRd h) (cRs2 h))
  else
    if cRs2 h = 0#5 then
      if cRd h = 0#5 then .ok .cEbreak else .ok (.cJalr (cRd h))
    else .ok (.cAdd (cRd h) (cRs2 h))

/-- Quadrant 10. -/
def decodeQ2 (h : Half) : Except Reject Instr :=
  match cFunct3 h with
  | 0b000#3 => if cBit12 h = 0#1 then .ok (.cSlli (cRd h) (cRs2 h)) else .error .compressedReserved
  | 0b010#3 => if cRd h = 0#5 then .error .compressedReserved else .ok (.cLwsp (cRd h) (cImmLwsp h))
  | 0b100#3 => decodeQ2Jump h
  | 0b110#3 => .ok (.cSwsp (cRs2 h) (cImmSwsp h))
  | _ => .error .compressedFloat

/-- A 16-bit instruction: quadrant, then funct3 (R183). Quadrant 11 is no 16-bit instruction (R171). -/
def decode16 (h : Half) : Except Reject Instr :=
  match cQuadrant h with
  | 0b00#2 => decodeQ0 h
  | 0b01#2 => decodeQ1 h
  | 0b10#2 => decodeQ2 h
  | _ => .error .truncated

/-- Decode one instruction's bits. -/
def decodeRaw : RawInsn → Except Reject Instr
  | .half h => decode16 h
  | .word w => if w.extractLsb' 0 2 = 3#2 then decode32 w else .error .majorOpcode

/-- The first instruction of a list of bytes, lowest address first, and the bytes after it (R100, R170, R171). -/
def decodeBytes : List Byte → Except Reject (Instr × List Byte)
  | b0 :: b1 :: rest =>
    let lo : Half := b1 ++ b0
    if cQuadrant lo = 3#2 then
      match rest with
      | b2 :: b3 :: rest' =>
        match decodeRaw (.word (b3 ++ b2 ++ b1 ++ b0)) with
        | .ok i => .ok (i, rest')
        | .error e => .error e
      | _ => .error .truncated
    else
      match decodeRaw (.half lo) with
      | .ok i => .ok (i, rest)
      | .error e => .error e
  | _ => .error .truncated

/-- `w` laid out as the hardware stores it: four bytes, least significant first (R100). -/
def tableWordBytes (w : Nat) : List Byte :=
  [BitVec.ofNat 8 w, BitVec.ofNat 8 (w / 2 ^ 8), BitVec.ofNat 8 (w / 2 ^ 16), BitVec.ofNat 8 (w / 2 ^ 24)]

/-- The instruction the decoder reads from an instruction whose `nbits` bits are `w`, every bit above them 0. -/
def decodeTableWord (nbits w : Nat) : Option Instr :=
  match decodeBytes (tableWordBytes (w % 2 ^ nbits)) with
  | .ok (i, _) => some i
  | .error _ => none

/-! ## The encoder: the 32-bit formats (R173) -/

def encR (funct7 : BitVec 7) (rs2 rs1 : Reg) (funct3 : BitVec 3) (rd : Reg) (op : BitVec 7) : Word :=
  funct7 ++ rs2 ++ rs1 ++ funct3 ++ rd ++ op

def encI (imm : BitVec 12) (rs1 : Reg) (funct3 : BitVec 3) (rd : Reg) (op : BitVec 7) : Word :=
  imm ++ rs1 ++ funct3 ++ rd ++ op

def encS (imm : BitVec 12) (rs2 rs1 : Reg) (funct3 : BitVec 3) (op : BitVec 7) : Word :=
  imm.extractLsb' 5 7 ++ rs2 ++ rs1 ++ funct3 ++ imm.extractLsb' 0 5 ++ op

def encB (off : BitVec 13) (rs2 rs1 : Reg) (funct3 : BitVec 3) (op : BitVec 7) : Word :=
  off.extractLsb' 12 1 ++ off.extractLsb' 5 6 ++ rs2 ++ rs1 ++ funct3 ++ off.extractLsb' 1 4
    ++ off.extractLsb' 11 1 ++ op

def encU (imm : BitVec 20) (rd : Reg) (op : BitVec 7) : Word := imm ++ rd ++ op

def encJ (off : BitVec 21) (rd : Reg) (op : BitVec 7) : Word :=
  off.extractLsb' 20 1 ++ off.extractLsb' 1 10 ++ off.extractLsb' 11 1 ++ off.extractLsb' 12 8 ++ rd ++ op

/-- funct7 of an atomic: {funct5, aq, rl} (R173, R325). -/
def encAmo (funct5 : BitVec 5) (aq rl : Bool) (rs2 rs1 rd : Reg) : Word :=
  encR (funct5 ++ BitVec.ofBool aq ++ BitVec.ofBool rl) rs2 rs1 0b010#3 rd 0b0101111#7

/-! ## The encoder: the 16-bit formats (R175); the scattered immediates are taken apart where they stand -/

/-- CIW and the CL and CS forms: funct3, three bits, a register of h[9:7], two bits, a register of h[4:2]. -/
def encC3 (funct3 : BitVec 3) (mid : BitVec 3) (high : BitVec 3) (two : BitVec 2) (low : BitVec 3)
    (quadrant : BitVec 2) : Half :=
  funct3 ++ mid ++ high ++ two ++ low ++ quadrant

/-- CI, CR and CSS forms: funct3, h[12], h[11:7], h[6:2]. -/
def encC5 (funct3 : BitVec 3) (b12 : BitVec 1) (mid : BitVec 5) (low : BitVec 5) (quadrant : BitVec 2) : Half :=
  funct3 ++ b12 ++ mid ++ low ++ quadrant

/-- CIW (R352): funct3, an 8-bit immediate field, rd'. -/
def encCiw (nzuimm : BitVec 10) (rd : Reg) : Half :=
  0b000#3 ++ nzuimm.extractLsb' 4 2 ++ nzuimm.extractLsb' 6 4 ++ nzuimm.extractLsb' 2 1 ++ nzuimm.extractLsb' 3 1
    ++ rd.extractLsb' 0 3 ++ 0b00#2

/-- CL and CS (R353, R354). -/
def encCls (funct3 : BitVec 3) (uimm : BitVec 7) (rs1 r : Reg) : Half :=
  encC3 funct3 (uimm.extractLsb' 3 3) (rs1.extractLsb' 0 3) (uimm.extractLsb' 2 1 ++ uimm.extractLsb' 6 1)
    (r.extractLsb' 0 3) 0b00#2

/-- CI with a 6-bit immediate (R355, R356, R358, R360). -/
def encCi (funct3 : BitVec 3) (imm : BitVec 6) (rd : Reg) : Half :=
  encC5 funct3 (imm.extractLsb' 5 1) rd (imm.extractLsb' 0 5) 0b01#2

/-- CJ (R357, R368). -/
def encCj (funct3 : BitVec 3) (off : BitVec 12) : Half :=
  funct3 ++ off.extractLsb' 11 1 ++ off.extractLsb' 4 1 ++ off.extractLsb' 8 2 ++ off.extractLsb' 10 1
    ++ off.extractLsb' 6 1 ++ off.extractLsb' 7 1 ++ off.extractLsb' 1 3 ++ off.extractLsb' 5 1 ++ 0b01#2

/-- CB branches (R369, R370). -/
def encCb (funct3 : BitVec 3) (off : BitVec 9) (rs1 : Reg) : Half :=
  encC3 funct3 (off.extractLsb' 8 1 ++ off.extractLsb' 3 2) (rs1.extractLsb' 0 3) (off.extractLsb' 6 2)
    (off.extractLsb' 1 2 ++ off.extractLsb' 5 1) 0b01#2

/-- CB arithmetic (R361 to R363): funct3 100, h[12], h[11:10], rd', h[6:2]. -/
def encCbAlu (b12 : BitVec 1) (op : BitVec 2) (rd : Reg) (low : BitVec 5) : Half :=
  0b100#3 ++ b12 ++ op ++ rd.extractLsb' 0 3 ++ low ++ 0b01#2

/-- CA (R364 to R367): h[15:10] = 100011. -/
def encCa (op : BitVec 2) (rd rs2 : Reg) : Half :=
  encC3 0b100#3 0b011#3 (rd.extractLsb' 0 3) op (rs2.extractLsb' 0 3) 0b01#2

/-- The bits of an instruction, from the encoding of each rule. -/
def encode : Instr → RawInsn
  | .lui rd imm => .word (encU imm rd 0b0110111#7)
  | .auipc rd imm => .word (encU imm rd 0b0010111#7)
  | .jal rd off => .word (encJ off rd 0b1101111#7)
  | .jalr rd rs1 imm => .word (encI imm rs1 0b000#3 rd 0b1100111#7)
  | .beq rs1 rs2 off => .word (encB off rs2 rs1 0b000#3 0b1100011#7)
  | .bne rs1 rs2 off => .word (encB off rs2 rs1 0b001#3 0b1100011#7)
  | .blt rs1 rs2 off => .word (encB off rs2 rs1 0b100#3 0b1100011#7)
  | .bge rs1 rs2 off => .word (encB off rs2 rs1 0b101#3 0b1100011#7)
  | .bltu rs1 rs2 off => .word (encB off rs2 rs1 0b110#3 0b1100011#7)
  | .bgeu rs1 rs2 off => .word (encB off rs2 rs1 0b111#3 0b1100011#7)
  | .lb rd rs1 imm => .word (encI imm rs1 0b000#3 rd 0b0000011#7)
  | .lh rd rs1 imm => .word (encI imm rs1 0b001#3 rd 0b0000011#7)
  | .lw rd rs1 imm => .word (encI imm rs1 0b010#3 rd 0b0000011#7)
  | .lbu rd rs1 imm => .word (encI imm rs1 0b100#3 rd 0b0000011#7)
  | .lhu rd rs1 imm => .word (encI imm rs1 0b101#3 rd 0b0000011#7)
  | .sb rs2 rs1 imm => .word (encS imm rs2 rs1 0b000#3 0b0100011#7)
  | .sh rs2 rs1 imm => .word (encS imm rs2 rs1 0b001#3 0b0100011#7)
  | .sw rs2 rs1 imm => .word (encS imm rs2 rs1 0b010#3 0b0100011#7)
  | .addi rd rs1 imm => .word (encI imm rs1 0b000#3 rd 0b0010011#7)
  | .slti rd rs1 imm => .word (encI imm rs1 0b010#3 rd 0b0010011#7)
  | .sltiu rd rs1 imm => .word (encI imm rs1 0b011#3 rd 0b0010011#7)
  | .xori rd rs1 imm => .word (encI imm rs1 0b100#3 rd 0b0010011#7)
  | .ori rd rs1 imm => .word (encI imm rs1 0b110#3 rd 0b0010011#7)
  | .andi rd rs1 imm => .word (encI imm rs1 0b111#3 rd 0b0010011#7)
  | .slli rd rs1 shamt => .word (encR 0b0000000#7 shamt rs1 0b001#3 rd 0b0010011#7)
  | .srli rd rs1 shamt => .word (encR 0b0000000#7 shamt rs1 0b101#3 rd 0b0010011#7)
  | .srai rd rs1 shamt => .word (encR 0b0100000#7 shamt rs1 0b101#3 rd 0b0010011#7)
  | .add rd rs1 rs2 => .word (encR 0b0000000#7 rs2 rs1 0b000#3 rd 0b0110011#7)
  | .sub rd rs1 rs2 => .word (encR 0b0100000#7 rs2 rs1 0b000#3 rd 0b0110011#7)
  | .sll rd rs1 rs2 => .word (encR 0b0000000#7 rs2 rs1 0b001#3 rd 0b0110011#7)
  | .slt rd rs1 rs2 => .word (encR 0b0000000#7 rs2 rs1 0b010#3 rd 0b0110011#7)
  | .sltu rd rs1 rs2 => .word (encR 0b0000000#7 rs2 rs1 0b011#3 rd 0b0110011#7)
  | .xor rd rs1 rs2 => .word (encR 0b0000000#7 rs2 rs1 0b100#3 rd 0b0110011#7)
  | .srl rd rs1 rs2 => .word (encR 0b0000000#7 rs2 rs1 0b101#3 rd 0b0110011#7)
  | .sra rd rs1 rs2 => .word (encR 0b0100000#7 rs2 rs1 0b101#3 rd 0b0110011#7)
  | .or rd rs1 rs2 => .word (encR 0b0000000#7 rs2 rs1 0b110#3 rd 0b0110011#7)
  | .and rd rs1 rs2 => .word (encR 0b0000000#7 rs2 rs1 0b111#3 rd 0b0110011#7)
  | .fence fm pred succ rs1 rd => .word (encI (fm ++ pred ++ succ) rs1 0b000#3 rd 0b0001111#7)
  | .fenceI imm rs1 rd => .word (encI imm rs1 0b001#3 rd 0b0001111#7)
  | .ecall => .word 0x00000073#32
  | .ebreak => .word 0x00100073#32
  | .uret => .word 0x00200073#32
  | .sret => .word 0x10200073#32
  | .mret => .word 0x30200073#32
  | .wfi => .word 0x10500073#32
  | .sfenceVma rs1 rs2 => .word (encR 0b0001001#7 rs2 rs1 0b000#3 0#5 0b1110011#7)
  | .csrrw rd csr rs1 => .word (encI csr rs1 0b001#3 rd 0b1110011#7)
  | .csrrs rd csr rs1 => .word (encI csr rs1 0b010#3 rd 0b1110011#7)
  | .csrrc rd csr rs1 => .word (encI csr rs1 0b011#3 rd 0b1110011#7)
  | .csrrwi rd csr uimm => .word (encI csr uimm 0b101#3 rd 0b1110011#7)
  | .csrrsi rd csr uimm => .word (encI csr uimm 0b110#3 rd 0b1110011#7)
  | .csrrci rd csr uimm => .word (encI csr uimm 0b111#3 rd 0b1110011#7)
  | .mul rd rs1 rs2 => .word (encR 0b0000001#7 rs2 rs1 0b000#3 rd 0b0110011#7)
  | .mulh rd rs1 rs2 => .word (encR 0b0000001#7 rs2 rs1 0b001#3 rd 0b0110011#7)
  | .mulhsu rd rs1 rs2 => .word (encR 0b0000001#7 rs2 rs1 0b010#3 rd 0b0110011#7)
  | .mulhu rd rs1 rs2 => .word (encR 0b0000001#7 rs2 rs1 0b011#3 rd 0b0110011#7)
  | .div rd rs1 rs2 => .word (encR 0b0000001#7 rs2 rs1 0b100#3 rd 0b0110011#7)
  | .divu rd rs1 rs2 => .word (encR 0b0000001#7 rs2 rs1 0b101#3 rd 0b0110011#7)
  | .rem rd rs1 rs2 => .word (encR 0b0000001#7 rs2 rs1 0b110#3 rd 0b0110011#7)
  | .remu rd rs1 rs2 => .word (encR 0b0000001#7 rs2 rs1 0b111#3 rd 0b0110011#7)
  | .lrW aq rl rd rs1 => .word (encAmo 0b00010#5 aq rl 0#5 rs1 rd)
  | .scW aq rl rd rs2 rs1 => .word (encAmo 0b00011#5 aq rl rs2 rs1 rd)
  | .amoswapW aq rl rd rs2 rs1 => .word (encAmo 0b00001#5 aq rl rs2 rs1 rd)
  | .amoaddW aq rl rd rs2 rs1 => .word (encAmo 0b00000#5 aq rl rs2 rs1 rd)
  | .amoxorW aq rl rd rs2 rs1 => .word (encAmo 0b00100#5 aq rl rs2 rs1 rd)
  | .amoandW aq rl rd rs2 rs1 => .word (encAmo 0b01100#5 aq rl rs2 rs1 rd)
  | .amoorW aq rl rd rs2 rs1 => .word (encAmo 0b01000#5 aq rl rs2 rs1 rd)
  | .amominW aq rl rd rs2 rs1 => .word (encAmo 0b10000#5 aq rl rs2 rs1 rd)
  | .amomaxW aq rl rd rs2 rs1 => .word (encAmo 0b10100#5 aq rl rs2 rs1 rd)
  | .amominuW aq rl rd rs2 rs1 => .word (encAmo 0b11000#5 aq rl rs2 rs1 rd)
  | .amomaxuW aq rl rd rs2 rs1 => .word (encAmo 0b11100#5 aq rl rs2 rs1 rd)
  | .cIllegal => .half 0x0000#16
  | .cAddi4spn rd nzuimm => .half (encCiw nzuimm rd)
  | .cLw rd rs1 uimm => .half (encCls 0b010#3 uimm rs1 rd)
  | .cSw rs2 rs1 uimm => .half (encCls 0b110#3 uimm rs1 rs2)
  | .cNop imm => .half (encCi 0b000#3 imm 0#5)
  | .cAddi rd imm => .half (encCi 0b000#3 imm rd)
  | .cJal off => .half (encCj 0b001#3 off)
  | .cLi rd imm => .half (encCi 0b010#3 imm rd)
  | .cAddi16sp nzimm =>
    .half (encC5 0b011#3 (nzimm.extractLsb' 9 1) 2#5
      (nzimm.extractLsb' 4 1 ++ nzimm.extractLsb' 6 1 ++ nzimm.extractLsb' 7 2 ++ nzimm.extractLsb' 5 1) 0b01#2)
  | .cLui rd nzimm => .half (encCi 0b011#3 nzimm rd)
  | .cSrli rd shamt => .half (encCbAlu 0#1 0b00#2 rd shamt)
  | .cSrai rd shamt => .half (encCbAlu 0#1 0b01#2 rd shamt)
  | .cAndi rd imm => .half (encCbAlu (imm.extractLsb' 5 1) 0b10#2 rd (imm.extractLsb' 0 5))
  | .cSub rd rs2 => .half (encCa 0b00#2 rd rs2)
  | .cXor rd rs2 => .half (encCa 0b01#2 rd rs2)
  | .cOr rd rs2 => .half (encCa 0b10#2 rd rs2)
  | .cAnd rd rs2 => .half (encCa 0b11#2 rd rs2)
  | .cJ off => .half (encCj 0b101#3 off)
  | .cBeqz rs1 off => .half (encCb 0b110#3 off rs1)
  | .cBnez rs1 off => .half (encCb 0b111#3 off rs1)
  | .cSlli rd shamt => .half (encC5 0b000#3 0#1 rd shamt 0b10#2)
  | .cLwsp rd uimm =>
    .half (encC5 0b010#3 (uimm.extractLsb' 5 1) rd (uimm.extractLsb' 2 3 ++ uimm.extractLsb' 6 2) 0b10#2)
  | .cJr rs1 => .half (encC5 0b100#3 0#1 rs1 0#5 0b10#2)
  | .cMv rd rs2 => .half (encC5 0b100#3 0#1 rd rs2 0b10#2)
  | .cEbreak => .half 0x9002#16
  | .cJalr rs1 => .half (encC5 0b100#3 1#1 rs1 0#5 0b10#2)
  | .cAdd rd rs2 => .half (encC5 0b100#3 1#1 rd rs2 0b10#2)
  | .cSwsp rs2 uimm =>
    .half (encC5 0b110#3 (uimm.extractLsb' 5 1) (uimm.extractLsb' 2 3 ++ uimm.extractLsb' 6 2) rs2 0b10#2)

end Sys2Proof
end

