-- ==== Sys2Proof/Config.lean ====
section
/-! DEFINITION. What an implementation fixes (the parameters of R7), what a device behind the MMIO handler
contract is asked and answers (R113), and the one uninterpreted constant: the handlers themselves. -/

namespace Sys2Proof

/-- The three access widths of the instruction set (R102). -/
inductive Width where
  | byte
  | half
  | word
  deriving DecidableEq, Repr

/-- The number of bytes of an access. -/
def Width.bytes : Width → Nat
  | .byte => 1
  | .half => 2
  | .word => 4

namespace Config

/-- One entry of the MMIO routing table: a half-open region `[base, limit)` with the cookie that stands for its
handler (R79; log entry 20). -/
structure Region where
  base : Nat
  limit : Nat
  cookie : Nat
  deriving DecidableEq, Repr

/-- The parameters the model takes (R7). They are a field of State (log entry 2), so a statement about every
state is a statement about every value of them. -/
structure Params where
  /-- RAM_BASE: guest physical base of RAM. -/
  ramBase : Nat
  /-- RAM_SIZE: RAM size in bytes. -/
  ramSize : Nat
  /-- TLB_N: number of TLB entries. -/
  tlbN : Nat
  /-- NHARTS: number of harts in the registry (R80). -/
  nharts : Nat
  /-- DTB_ADDR: the value of x11 at reset. -/
  dtbAddr : Word
  /-- RSV_SNOOP: whether another hart's store to the reserved word clears the reservation (R324). -/
  rsvSnoop : Bool
  /-- MMIO_TABLE, without the per-hart CLINT regions. -/
  mmioTable : List Region
  /-- CLINT_BASE and CLINT_LEN (no value in the spec); a length of 0 means that no CLINT region is installed. -/
  clintBase : Nat
  clintLen : Nat
  deriving DecidableEq, Repr

/-- TIMER_HZ: frequency of `time` in Hz (R7). No rule depends on it (R515). -/
def timerHz : Nat := 10000000

/-- What kind of access a handler is called for (R113). -/
inductive MmioKind where
  | read
  | write (data : Word)
  deriving DecidableEq, Repr

/-- One handler call as the core issues it: region, offset, size, read or write, write data (R113, R520). -/
structure MmioAccess where
  region : Region
  offset : Nat
  width : Width
  kind : MmioKind
  deriving DecidableEq, Repr

/-- What a device may do to this hart and to RAM (R146, R462, R481). -/
inductive DeviceAction where
  /-- `Post(h, bits)` of R462. -/
  | post (bits : Word)
  /-- `SetTimecmp(h, v)` of R481. -/
  | setTimecmp (v : DWord)
  /-- A write of bytes to RAM at a guest physical address (R146). -/
  | ramWrite (addr : Nat) (bytes : List Byte)
  deriving DecidableEq, Repr

/-- What a handler can look at when it is called: the hart that calls it (R110), its own state, the ports GetTime and
GetTimecmp (R483, R481) and RAM (R146). -/
structure MmioContext where
  hart : Word
  devices : Nat
  time : DWord
  timecmp : DWord
  ram : List Host.Cell
  deriving DecidableEq, Repr

/-- What a handler answers: success or failure, read data, the new device state, and the actions it performed
(R113, R520). -/
structure MmioAnswer where
  ok : Bool
  data : Word
  devices : Nat
  actions : List DeviceAction
  deriving DecidableEq, Repr, Inhabited

/-- The MMIO handlers of R113, `a function from device state, access kind, offset, size and data to new device
state, a success flag and read data, about which the core assumes nothing`: a constant with no body, so no proof
can see what it answers (log entry 4). -/
opaque mmioHandler : MmioContext → MmioAccess → MmioAnswer

end Config

end Sys2Proof
end

