-- ==== Sys2Proof/Machine/Defaults.lean ====
section
/-! DEFINITION. The parameter values of the machine that `State.reset` builds: the defaults of R7, and the model's own
choice where R7 gives no default (log entries 1 and 3). -/

namespace Sys2Proof.Machine

/-- RAM_BASE, TLB_N, NHARTS, DTB_ADDR and RSV_SNOOP at the defaults of R7. DESIGN CHOICE (log entries 1, 3), the
spec gives no default: RAM_SIZE is 256 MiB, the MMIO table is empty and no CLINT region is installed. -/
def defaultParams : Config.Params where
  ramBase := 0x80000000
  ramSize := 0x10000000
  tlbN := 256
  nharts := 1
  dtbAddr := 0#32
  rsvSnoop := true
  mmioTable := []
  clintBase := 0
  clintLen := 0

end Sys2Proof.Machine
end

