-- ==== Sys2Proof/Machine/State.lean ====
section
/-! DEFINITION. Everything the spec gives the machine, as plain data (10_state.md R20 to R90), and the state after
reset (R90, R500). One hart, the RAM it shares, and what the other agents do, between and inside its
instructions (log entries 5 and 6). -/

namespace Sys2Proof.Machine

/-- The machine never stops with a fault: every error is a trap, which is a next state (R440, R514). -/
inductive Fault where
  deriving DecidableEq, Repr

/-- Why a step is refused. -/
inductive Refusal where
  /-- Raised by an arm of `exec` whose instruction has no meaning yet; safe. -/
  | notModelled (mnemonic : String)
  /-- Raised by `step` when the parameters break a constraint of R7 (I23: `refuse`), or when the hart's index is none
  of 0 to NHARTS - 1 (R58, R80); safe (log entry 15). -/
  | badConfiguration
  deriving DecidableEq, Repr

/-- The privilege levels (R27). Level 2 is never entered. -/
inductive Priv where
  | user
  | supervisor
  | machine
  deriving DecidableEq, Repr

/-- What a memory access is for: it selects permission, page fault and access fault (R120, R123). -/
inductive AccessType where
  | fetch
  | load
  | store
  deriving DecidableEq, Repr

/-- The synchronous exceptions this hardware raises (R440). Codes 0, 10 and 14 are never raised. -/
inductive Exception where
  | instructionAccessFault
  | illegalInstruction
  | breakpoint
  | loadAddressMisaligned
  | loadAccessFault
  | storeAddressMisaligned
  | storeAccessFault
  | environmentCallFromU
  | environmentCallFromS
  | environmentCallFromM
  | instructionPageFault
  | loadPageFault
  | storePageFault
  deriving DecidableEq, Repr

/-- A register that exists once per privilege level: the arrays of R17 without the reserved index 2, which R17 lets a
model omit. -/
structure Banked where
  user : Word
  supervisor : Word
  machine : Word
  deriving DecidableEq, Repr

/-- The CSR storage of R36. `edeleg[3]`, `edeleg[1]`, `edeleg[0]` are `medeleg`, `sedeleg`, `uedeleg`, and so on for
`ideleg` and `counteren` (R55 to R57). The elements of index 0 have no CSR address, and no rule reads or writes them
after reset (R36, R90). -/
structure CsrFile where
  status : Word
  ie : Word
  ip : Word
  tvec : Banked
  epc : Banked
  cause : Banked
  tval : Banked
  scratch : Banked
  medeleg : Word
  sedeleg : Word
  mideleg : Word
  sideleg : Word
  mcounteren : Word
  scounteren : Word
  uedeleg : Word
  uideleg : Word
  ucounteren : Word
  hartid : Word
  satp : Word
  deriving DecidableEq, Repr

/-- The set of access types a TLB entry was validated for (R70). -/
structure Perm where
  fetch : Bool
  load : Bool
  store : Bool
  deriving DecidableEq, Repr

/-- A VALID TLB entry (R70); an index that the TLB does not list is an entry with `valid = 0` (log entry 10). -/
structure TlbEntry where
  vpn : BitVec 20
  perm : Perm
  ppn : BitVec 20
  deriving DecidableEq, Repr

/-- The TLB: valid entries by index, indexes strictly rising. -/
abbrev Tlb := List (Nat × TlbEntry)

/-- RAM: (address, byte) pairs, addresses strictly rising, no byte equal to what an unlisted address reads as. -/
abbrev Memory := List Host.Cell

/-- One action of an agent other than the hart (R14, R146, R324, R462, R480 to R483). -/
inductive AgentAction where
  /-- A device posts, writes `timecmp` through its port, or writes RAM. -/
  | device (a : Config.DeviceAction)
  /-- The devices' own state changes. -/
  | deviceState (n : Nat)
  /-- The timer agent takes its turn: it posts bit 7 if the timer is pending (R480). -/
  | timer
  /-- `time` has advanced to `t`; an earlier `t` leaves it (R483: it never decreases). -/
  | timeTo (t : DWord)
  /-- Hart `h`, another hart of the registry, writes `w` bytes of `v` at the physical address `pa` by a store, AMO or
  SC.W (R324, R80). -/
  | otherHartStore (h : Nat) (pa : PhysAddr) (w : Width) (v : Word)
  deriving DecidableEq, Repr

/-- Whose turn it is (R471). -/
inductive Turn where
  | hart
  | agent (a : AgentAction)
  deriving DecidableEq, Repr

/-- The machine. -/
structure State where
  /-- x0 to x31; x0 is hardwired in `readReg` and `writeReg` (R20, R21). -/
  regs : Vector Word 32
  /-- R24 -/
  pc : Word
  /-- R27 -/
  priv : Priv
  /-- R36 -/
  csr : CsrFile
  /-- R70 -/
  tlb : Tlb
  /-- R72 -/
  time : DWord
  /-- R72 -/
  timecmp : DWord
  /-- R74 -/
  waitEvent : Bool
  /-- R74, R453 -/
  evTrap : Bool
  /-- R74 -/
  evInt : Bool
  /-- R74 -/
  evIntMask : Word
  /-- R74, R407 -/
  parked : Bool
  /-- R76: `none` is valid = 0 -/
  rsv : Option PhysAddr
  /-- R78 -/
  mem : Memory
  /-- The parameters (R7) and the MMIO table (R79); they never change. -/
  cfg : Config.Params
  /-- The devices' state behind the MMIO handlers (R113); the model's own field (log entry 4). -/
  devices : Nat
  /-- The MMIO accesses issued so far, newest first (R520); the model's own field (log entry 4). -/
  mmioLog : List Config.MmioAccess
  /-- Whose turn comes next; when it is empty, every turn is the hart's (R471); the model's own field (log entry 5). -/
  agenda : List Turn
  /-- What the other agents do inside an instruction of this hart: the k-th entry just before the hart's k-th memory
  event from here on (R140, R141, R470); empty: nothing; the model's own field (log entry 6). -/
  interleaved : List (List AgentAction)
  deriving DecidableEq, Repr

/-- The CSR storage after reset: every register 0, `hartid` the index of the hart (R90, R58). -/
def CsrFile.reset (h : Word) : CsrFile where
  status := 0#32
  ie := 0#32
  ip := 0#32
  tvec := ⟨0#32, 0#32, 0#32⟩
  epc := ⟨0#32, 0#32, 0#32⟩
  cause := ⟨0#32, 0#32, 0#32⟩
  tval := ⟨0#32, 0#32, 0#32⟩
  scratch := ⟨0#32, 0#32, 0#32⟩
  medeleg := 0#32
  sedeleg := 0#32
  mideleg := 0#32
  sideleg := 0#32
  mcounteren := 0#32
  scounteren := 0#32
  uedeleg := 0#32
  uideleg := 0#32
  ucounteren := 0#32
  hartid := h
  satp := 0#32

/-- Hart `h` of a machine with parameters `p` after reset, RAM holding the image `ramInit` (R90, R500, R501). -/
def State.resetWith (p : Config.Params) (h : Word) (ramInit : Memory) : State where
  regs := (Vector.replicate 32 0#32).set 11 p.dtbAddr
  pc := BitVec.ofNat 32 p.ramBase
  priv := .machine
  csr := CsrFile.reset h
  tlb := []
  time := 0#64
  timecmp := 0#64
  waitEvent := false
  evTrap := false
  evInt := false
  evIntMask := 0#32
  parked := false
  rsv := none
  mem := ramInit
  cfg := p
  devices := 0
  mmioLog := []
  agenda := []
  interleaved := []

/-- The machine right after reset: hart 0, the default parameters, RAM with nothing listed. -/
def State.reset : State := State.resetWith defaultParams 0#32 []

end Sys2Proof.Machine
end

