-- ==== Sys2Proof/Machine/Flags.lean ====
section
/-! DEFINITION. There are no condition flags (R28). This file holds the fields of `status` (R40), the encoding and
order of privilege levels (R27), the interrupt-enable and pending bits, and the translation context (R134). -/

namespace Sys2Proof.Machine

/-- Bit `i` of `w` replaced by `b`. -/
def setBit (w : Word) (i : Nat) (b : Bool) : Word :=
  if b then w ||| (1#32 <<< i) else w &&& ~~~(1#32 <<< i)

/-- U = 0, S = 1, M = 3 (R27). -/
def Priv.code : Priv → BitVec 2
  | .user => 0#2
  | .supervisor => 1#2
  | .machine => 3#2

/-- The level a two-bit privilege field stands for. Such a field never holds 2 (R27, R41); the model reads 2 as M
(DESIGN CHOICE, log entry 9). -/
def privOfCode (c : BitVec 2) : Priv :=
  if c = 0#2 then .user else if c = 1#2 then .supervisor else .machine

/-- `a` is a more privileged level than `b`. -/
def Priv.above (a b : Priv) : Bool := b.code.ult a.code

/-- The element of a per-level array (R17). -/
def Banked.get (b : Banked) : Priv → Word
  | .user => b.user
  | .supervisor => b.supervisor
  | .machine => b.machine

/-- The array with one element replaced. -/
def Banked.set (b : Banked) (p : Priv) (v : Word) : Banked :=
  match p with
  | .user => { b with user := v }
  | .supervisor => { b with supervisor := v }
  | .machine => { b with machine := v }

/-! ## The fields of `status` (R40) -/

/-- Bit number of xIE: UIE 0, SIE 1, MIE 3. -/
def ieBit : Priv → Nat
  | .user => 0
  | .supervisor => 1
  | .machine => 3

/-- Bit number of xPIE: UPIE 4, SPIE 5, MPIE 7. -/
def pieBit : Priv → Nat
  | .user => 4
  | .supervisor => 5
  | .machine => 7

/-- xIE: the global interrupt enable for interrupts whose target is `p`. -/
def statusIE (status : Word) (p : Priv) : Bool := status.getLsbD (ieBit p)

/-- xPIE: the value of xIE before the last trap into `p`. -/
def statusPIE (status : Word) (p : Priv) : Bool := status.getLsbD (pieBit p)

/-- SPP, bit 8: 1 = S, 0 = U. -/
def statusSPP (status : Word) : Bool := status.getLsbD 8

/-- MPP, bits 12:11. -/
def statusMPP (status : Word) : BitVec 2 := status.extractLsb' 11 2

/-- MPRV, bit 17: loads and stores are checked at MPP. -/
def statusMPRV (status : Word) : Bool := status.getLsbD 17

/-- SUM, bit 18: S may touch user pages with loads and stores. -/
def statusSUM (status : Word) : Bool := status.getLsbD 18

/-- MXR, bit 19: loads may read execute-only pages. -/
def statusMXR (status : Word) : Bool := status.getLsbD 19

/-- The MPP field replaced. -/
def setMPP (status : Word) (c : BitVec 2) : Word :=
  setBit (setBit status 11 (c.getLsbD 0)) 12 (c.getLsbD 1)

/-- The previous privilege xPP of level `p`: MPP, SPP, and U for U, which has no field (R403). -/
def statusPP (status : Word) : Priv → Priv
  | .user => .user
  | .supervisor => if statusSPP status then .supervisor else .user
  | .machine => privOfCode (statusMPP status)

/-- xPP of level `p` replaced by `q`; nothing for U. A trap into S comes from S or U, so one bit is enough (R450). -/
def setPP (status : Word) (p q : Priv) : Word :=
  match p with
  | .user => status
  | .supervisor => setBit status 8 (q.code.getLsbD 0)
  | .machine => setMPP status q.code

/-- The implemented bits of `status` (R40). -/
def statusMask : Word := 0x000E19BB#32

/-- The nine interrupt numbers as a mask (R44): every other bit of `ie`, `ip` and `ev_int_mask` is 0. -/
def interruptMask : Word := 0x00000BBB#32

/-- What the TLB's validations depend on beside `satp`: (priv, MPRV, MPP, SUM, MXR) (R134). -/
structure TranslationContext where
  priv : Priv
  mprv : Bool
  mpp : BitVec 2
  sum : Bool
  mxr : Bool
  deriving DecidableEq, Repr

/-- The translation context of a state. -/
def translationContext (s : State) : TranslationContext where
  priv := s.priv
  mprv := statusMPRV s.csr.status
  mpp := statusMPP s.csr.status
  sum := statusSUM s.csr.status
  mxr := statusMXR s.csr.status

end Sys2Proof.Machine
end

