-- ==== Sys2Proof/Machine/Operands.lean ====
section
/-! DEFINITION. Every operand form: reading and writing an integer register (R10, R21), the immediates as 32-bit
values (R174, R176), the effective address (R270) and the address of the next instruction (R10, R26). -/

namespace Sys2Proof.Machine

/-- `x[r]`: x0 reads 0 (R21). -/
def readReg (s : State) (r : Reg) : Word := if r = 0#5 then 0#32 else s.regs[r.toNat]'(r.isLt)

/-- `x[r] <- v`: a write to x0 is discarded (R21). -/
def writeReg (r : Reg) (v : Word) (s : State) : State :=
  if r = 0#5 then s else { s with regs := s.regs.set r.toNat v r.isLt }

/-- `pc <- pc + len` (R10), modulo 2^32 (R26). -/
def advance (len : Word) (s : State) : State := { s with pc := s.pc + len }

/-- `pc <- target`. -/
def setPc (target : Word) (s : State) : State := { s with pc := target }

/-- `sext_n` of an n-bit immediate (R9). -/
def sext {n : Nat} (imm : BitVec n) : Word := imm.signExtend 32

/-- `zext_n` of an n-bit immediate (R9). -/
def zext {n : Nat} (imm : BitVec n) : Word := imm.zeroExtend 32

/-- imm_U: the 20 bits in 31:12, zeros below (R174). -/
def upperImm (imm : BitVec 20) : Word := imm ++ 0#12

/-- C.LUI: the 6 bits in 17:12, sign at bit 17 (R360). -/
def cLuiImm (imm : BitVec 6) : Word := sext (imm ++ 0#12)

/-- The effective address of a load or store: base register plus 32-bit offset, modulo 2^32 (R270). -/
def effAddr (base : Reg) (off : Word) (s : State) : Word := readReg s base + off

/-- A loaded value as the destination register gets it: the low 8, 16 or 32 bits, sign-extended (R271 to R273). -/
def signedLoad (w : Width) (v : Word) : Word :=
  match w with
  | .byte => sext (v.extractLsb' 0 8)
  | .half => sext (v.extractLsb' 0 16)
  | .word => v

/-- The same, zero-extended (R273 to R275). -/
def unsignedLoad (w : Width) (v : Word) : Word :=
  match w with
  | .byte => zext (v.extractLsb' 0 8)
  | .half => zext (v.extractLsb' 0 16)
  | .word => v

end Sys2Proof.Machine
end

