-- ==== Sys2Proof/Machine/Ops.lean ====
section
/-! DEFINITION. The named operations over memory, the TLB, address translation, MMIO, the event flags, interrupts,
taking an exception and returning from one; each from the rule its docstring names. -/

namespace Sys2Proof.Machine

/-! ## Sparse data: a list of (key, value), keys strictly rising -/

/-- The value listed under a key. -/
def sparseGet {α : Type} (k : Nat) : List (Nat × α) → Option α
  | [] => none
  | (a, v) :: rest => if a = k then some v else sparseGet k rest

/-- List `v` under `k`, in its place. -/
def sparseSet {α : Type} (k : Nat) (v : α) : List (Nat × α) → List (Nat × α)
  | [] => [(k, v)]
  | (a, b) :: rest =>
    if k < a then (k, v) :: (a, b) :: rest
    else if a = k then (k, v) :: rest
    else (a, b) :: sparseSet k v rest

/-- List nothing under `k`. -/
def sparseErase {α : Type} (k : Nat) : List (Nat × α) → List (Nat × α)
  | [] => []
  | (a, b) :: rest => if a = k then rest else (a, b) :: sparseErase k rest

/-- Keys strictly rising, the first at or above `lo`. -/
def sparseSortedFrom {α : Type} (lo : Nat) : List (Nat × α) → Bool
  | [] => true
  | (a, _) :: rest => decide (lo ≤ a) && sparseSortedFrom (a + 1) rest

/-! ## RAM (R78, R100) -/

/-- What a byte of RAM that nothing has written reads as: bytes the image does not cover are 0 (R90, D43). -/
def unlistedByte : Byte := 0#8

/-- The canonical form: addresses strictly rising, no entry equal to what an unlisted address reads as. -/
def Memory.wf (m : Memory) : Bool := sparseSortedFrom 0 m && m.all fun c => c.2 != unlistedByte

/-- One byte of RAM. -/
def readByte (m : Memory) (a : Nat) : Byte := (sparseGet a m).getD unlistedByte

/-- Write one byte, keeping the canonical form. -/
def writeByte (a : Nat) (b : Byte) (m : Memory) : Memory :=
  if b = unlistedByte then sparseErase a m else sparseSet a b m

/-- `n` bytes at `a` as a little-endian value: the lowest address is bits 7:0 (R100). -/
def readBytes (m : Memory) (a : Nat) : Nat → Word
  | 0 => 0#32
  | n + 1 => zext (readByte m a) ||| (readBytes m (a + 1) n <<< 8)

/-- The low `8n` bits of `v` at `a`, least significant byte at the lowest address (R100, R111). -/
def writeBytes (a : Nat) (v : Word) (m : Memory) : Nat → Memory
  | 0 => m
  | n + 1 => writeBytes (a + 1) (v >>> 8) (writeByte a (v.extractLsb' 0 8) m) n

/-- `InRam(pa, n)` (R340, and the RAM branch of R110). -/
def inRam (p : Config.Params) (pa : PhysAddr) (n : Nat) : Bool :=
  decide (pa.toNat < 2 ^ 32) && decide (p.ramBase ≤ pa.toNat) && decide (pa.toNat + n ≤ p.ramBase + p.ramSize)

/-! ## The load reservation (R320 to R324) -/

/-- The `n` bytes at `pa` overlap the reserved word (R323). -/
def reservationHit (rsv : Option PhysAddr) (pa : PhysAddr) (n : Nat) : Bool :=
  match rsv with
  | none => false
  | some a => decide (pa.toNat < a.toNat + 4) && decide (a.toNat < pa.toNat + n)

/-- The store path check of R323 on this hart's reservation. -/
def reservationStoreCheck (pa : PhysAddr) (n : Nat) (s : State) : State :=
  if reservationHit s.rsv pa n then { s with rsv := none } else s

/-- A write to RAM by an instruction of this hart: the bytes and the store path check, one event (R111, R323). -/
def ramWrite (pa : PhysAddr) (n : Nat) (v : Word) (s : State) : State :=
  reservationStoreCheck pa n { s with mem := writeBytes pa.toNat v s.mem n }

/-! ## Event flags, the timer, and what the other agents do -/

/-- `time >=u timecmp` (R72). -/
def timerPending (s : State) : Bool := s.timecmp.ule s.time

/-- `Post(h, bits)` (R462). Bits outside the nine interrupt numbers are dropped (I24; log entry 8). -/
def post (bits : Word) (s : State) : State :=
  { s with evIntMask := s.evIntMask ||| (bits &&& interruptMask), evInt := true, waitEvent := false }

/-- The self-signal (R466). -/
def selfSignal (s : State) : State := { s with evInt := true, waitEvent := false }

/-- `SetTimecmp(h, v)`: the compare register and the self-signal (R481). -/
def setTimecmp (v : DWord) (s : State) : State := selfSignal { s with timecmp := v }

/-- Bytes a device writes to RAM from address `a` on; an address outside RAM is no RAM byte and takes nothing
(log entry 13). -/
def deviceBytes (p : Config.Params) (a : Nat) (m : Memory) : List Byte → Memory
  | [] => m
  | b :: rest =>
    deviceBytes p (a + 1)
      (if p.ramBase ≤ a ∧ a < p.ramBase + p.ramSize ∧ a < 2 ^ 32 then writeByte a b m else m) rest

/-- A device's action; its RAM writes clear no reservation (R323). -/
def deviceAct (s : State) : Config.DeviceAction → State
  | .post bits => post bits s
  | .setTimecmp v => setTimecmp v s
  | .ramWrite a bytes => { s with mem := deviceBytes s.cfg a s.mem bytes }

/-- `h` is a hart of the registry (R80: 0 to NHARTS - 1) and not this one. -/
def isOtherHart (h : Nat) (s : State) : Bool := decide (h < s.cfg.nharts) && h != s.csr.hartid.toNat

/-- Hart `h`'s write to RAM; with RSV_SNOOP it clears this hart's reservation on the word (R324). -/
def otherHartStore (h : Nat) (pa : PhysAddr) (w : Width) (v : Word) (s : State) : State :=
  if isOtherHart h s && inRam s.cfg pa w.bytes then
    let s1 := { s with mem := writeBytes pa.toNat v s.mem w.bytes }
    if s.cfg.rsvSnoop then reservationStoreCheck pa w.bytes s1 else s1
  else s

/-- One action of an agent other than the hart. -/
def agentAct (s : State) : AgentAction → State
  | .device a => deviceAct s a
  | .deviceState n => { s with devices := n }
  | .timer => if timerPending s then post 0x80#32 s else s
  | .timeTo t => if s.time.ule t then { s with time := t } else s
  | .otherHartStore h pa w v => otherHartStore h pa w v s

/-- What the other agents do just before this hart's next memory event (R140, R141, R470; log entry 6). Every read and
write below is made on the state this gives. -/
def interleave (s : State) : State :=
  match s.interleaved with
  | [] => s
  | actions :: rest => actions.foldl agentAct { s with interleaved := rest }

/-! ## Physical access (R110, R111, R113) -/

/-- The MMIO routing table: the registered regions, then the CLINT region of every hart (R79, R107, R500). DESIGN CHOICE
(log entry 20): the CLINT regions stand last, and the cookie of hart `h`'s region is `h`. -/
def mmioRegions (p : Config.Params) : List Config.Region :=
  p.mmioTable ++
    if p.clintLen = 0 then []
    else (List.range p.nharts).map fun h =>
      { base := p.clintBase + h * p.clintLen, limit := p.clintBase + (h + 1) * p.clintLen, cookie := h }

/-- One half-open region ends before the other begins; for two that are not empty: they share no address (R7, R79).
DESIGN CHOICE (log entry 19): an empty region strictly inside another one counts as overlapping it. -/
def regionsDisjoint (a b : Config.Region) : Bool := decide (a.limit ≤ b.base) || decide (b.limit ≤ a.base)

/-- No two regions of the list overlap. -/
def pairwiseDisjoint : List Config.Region → Bool
  | [] => true
  | r :: rest => rest.all (regionsDisjoint r) && pairwiseDisjoint rest

/-- A power of two. -/
def isPowerOfTwo (n : Nat) : Bool := n != 0 && n &&& (n - 1) == 0

/-- The constraints on the parameters (R7, R79, R80; their violations are I23). That RAM_BASE is even is DEDUCED from
R25 (log entry 15). -/
def paramsLegal (p : Config.Params) : Bool :=
  decide (p.ramSize % 4096 = 0) && decide (p.ramBase + p.ramSize ≤ 2 ^ 32) && decide (p.ramBase % 2 = 0)
    && isPowerOfTwo p.tlbN && decide (1 ≤ p.nharts) && decide (p.nharts ≤ 256)
    && decide ((mmioRegions p).length ≤ 256) && pairwiseDisjoint (mmioRegions p)
    && (mmioRegions p).all (fun r => regionsDisjoint r { base := p.ramBase, limit := p.ramBase + p.ramSize, cookie := 0 })

/-- The machine is one of R7, and the modelled hart is one of its harts: `0 <= hartid < NHARTS` (R58, R80; log
entry 15). -/
def machineLegal (s : State) : Bool := paramsLegal s.cfg && decide (s.csr.hartid.toNat < s.cfg.nharts)

/-- The first region, in table order, that holds the first byte of the access (R110, D38). -/
def mmioLookup (p : Config.Params) (pa : PhysAddr) : Option Config.Region :=
  (mmioRegions p).find? fun r => decide (r.base ≤ pa.toNat) && decide (pa.toNat < r.limit)

/-- What the handler answers to an access in this state. -/
def mmioAnswer (acc : Config.MmioAccess) (s : State) : Config.MmioAnswer :=
  Config.mmioHandler { hart := s.csr.hartid, devices := s.devices, time := s.time, timecmp := s.timecmp, ram := s.mem } acc

/-- One handler call: the access is issued, the device changes state and acts (R113; log entries 4, 11). -/
def mmioCall (acc : Config.MmioAccess) (s : State) : State :=
  let ans := mmioAnswer acc s
  ans.actions.foldl deviceAct { s with devices := ans.devices, mmioLog := acc :: s.mmioLog }

/-- The handler call for an access to `pa`. -/
def mmioAccessOf (r : Config.Region) (pa : PhysAddr) (w : Width) (kind : Config.MmioKind) : Config.MmioAccess :=
  { region := r, offset := pa.toNat - r.base, width := w, kind := kind }

/-- `PhysRead(pa, n)` (R110): the value, or `none` for AccessFail, and the state after the access, which is one memory
event. -/
def physRead (pa : PhysAddr) (w : Width) (s : State) : Option Word × State :=
  if 2 ^ 32 ≤ pa.toNat then (none, s)
  else if inRam s.cfg pa w.bytes then (some (readBytes (interleave s).mem pa.toNat w.bytes), interleave s)
  else
    match mmioLookup s.cfg pa with
    | none => (none, s)
    | some r =>
      let acc := mmioAccessOf r pa w .read
      let s1 := interleave s
      (if (mmioAnswer acc s1).ok then some (unsignedLoad w (mmioAnswer acc s1).data) else none, mmioCall acc s1)

/-- `PhysWrite(pa, n, v)` (R111): whether the write was accepted, and the state after it, which is one memory event. A
write to RAM makes the store path check (R323). -/
def physWrite (pa : PhysAddr) (w : Width) (v : Word) (s : State) : Bool × State :=
  if 2 ^ 32 ≤ pa.toNat then (false, s)
  else if inRam s.cfg pa w.bytes then (true, ramWrite pa w.bytes v (interleave s))
  else
    match mmioLookup s.cfg pa with
    | none => (false, s)
    | some r =>
      let acc := mmioAccessOf r pa w (.write (unsignedLoad w v))
      let s1 := interleave s
      ((mmioAnswer acc s1).ok, mmioCall acc s1)

/-! ## What part of an instruction can do: give a value, or raise one exception (R12) -/

/-- The result of a part of an instruction. The state after a raise keeps the memory and page-table side effects made
before it (R12). -/
inductive Access (α : Type) where
  | ok (a : α) (s : State)
  | raise (e : Exception) (tval : Word) (s : State)

/-- Go on with the value, or raise. -/
def Access.andThen {α β : Type} (r : Access α) (f : α → State → Access β) : Access β :=
  match r with
  | .ok a s => f a s
  | .raise e t s => .raise e t s

/-- The access fault of an access type (R112, R124). -/
def accessFault : AccessType → Exception
  | .fetch => .instructionAccessFault
  | .load => .loadAccessFault
  | .store => .storeAccessFault

/-- The page fault of an access type (R123). -/
def pageFault : AccessType → Exception
  | .fetch => .instructionPageFault
  | .load => .loadPageFault
  | .store => .storePageFault

/-! ## The TLB (R70, R130 to R135) -/

/-- The access type is in the set. -/
def Perm.has (p : Perm) : AccessType → Bool
  | .fetch => p.fetch
  | .load => p.load
  | .store => p.store

/-- The set that holds one access type (R131). -/
def Perm.only : AccessType → Perm
  | .fetch => ⟨true, false, false⟩
  | .load => ⟨false, true, false⟩
  | .store => ⟨false, false, true⟩

/-- va[31:12] -/
def vpnOf (va : Word) : BitVec 20 := va.extractLsb' 12 20

/-- `vpn & (TLB_N - 1)` (R70). -/
def tlbIndex (p : Config.Params) (vpn : BitVec 20) : Nat := vpn.toNat &&& (p.tlbN - 1)

/-- A hit gives the physical page number: valid, the same vpn, the access type in `perm` (R130). -/
def tlbLookup (va : Word) (t : AccessType) (s : State) : Option (BitVec 20) :=
  match sparseGet (tlbIndex s.cfg (vpnOf va)) s.tlb with
  | none => none
  | some e => if e.vpn = vpnOf va ∧ e.perm.has t then some e.ppn else none

/-- The 4 KiB page of `pa` lies wholly in RAM (R131). -/
def isRamPage (p : Config.Params) (pa : PhysAddr) : Bool :=
  decide (pa.toNat < 2 ^ 32) && decide (p.ramBase ≤ pa.toNat / 4096 * 4096)
    && decide (pa.toNat / 4096 * 4096 + 4096 ≤ p.ramBase + p.ramSize)

/-- Fill after a walk: the entry at the index is replaced (R131). -/
def tlbFill (va : Word) (t : AccessType) (pa : PhysAddr) (s : State) : State :=
  if isRamPage s.cfg pa then
    { s with
      tlb := sparseSet (tlbIndex s.cfg (vpnOf va))
        { vpn := vpnOf va, perm := Perm.only t, ppn := pa.extractLsb' 12 20 } s.tlb }
  else s

/-- Every entry invalid (R133). -/
def flushTlb (s : State) : State := { s with tlb := [] }

/-- The context flush: `s` after an event that began in context `ctx0` (R134). -/
def contextFlush (ctx0 : TranslationContext) (s : State) : State :=
  if translationContext s = ctx0 then s else flushTlb s

/-! ## Translation (R120 to R128) -/

/-- `EffPriv(t)` (R121). -/
def effPriv (t : AccessType) (s : State) : Priv :=
  match t with
  | .fetch => s.priv
  | .load | .store => if statusMPRV s.csr.status then privOfCode (statusMPP s.csr.status) else s.priv

/-- satp.MODE (R59). -/
def satpMode (s : State) : Bool := s.csr.satp.getLsbD 31

/-- satp.PPN (R59). -/
def satpPpn (s : State) : BitVec 22 := s.csr.satp.extractLsb' 0 22

/-! The fields of a page-table entry (R122). -/

def pteV (pte : Word) : Bool := pte.getLsbD 0
def pteR (pte : Word) : Bool := pte.getLsbD 1
def pteW (pte : Word) : Bool := pte.getLsbD 2
def pteX (pte : Word) : Bool := pte.getLsbD 3
def pteU (pte : Word) : Bool := pte.getLsbD 4
def ptePpn (pte : Word) : BitVec 22 := pte.extractLsb' 10 22
def ptePpn0 (pte : Word) : BitVec 10 := pte.extractLsb' 10 10
def ptePpn1 (pte : Word) : BitVec 12 := pte.extractLsb' 20 12

/-- V = 0, or W without R: no entry (R123 step 2). -/
def pteInvalid (pte : Word) : Bool := !pteV pte || (pteW pte && !pteR pte)

/-- A leaf has R or X (R122). -/
def pteLeaf (pte : Word) : Bool := pteR pte || pteX pte

/-- `Permitted(pte, t, eff)` (R126). -/
def permitted (pte : Word) (t : AccessType) (eff : Priv) (s : State) : Bool :=
  let userOk :=
    match eff with
    | .user => pteU pte
    | .supervisor => !pteU pte || (t != .fetch && statusSUM s.csr.status)
    | .machine => true
  let typeOk :=
    match t with
    | .fetch => pteX pte
    | .load => pteR pte || (statusMXR s.csr.status && pteX pte)
    | .store => pteW pte
  userOk && typeOk

/-- `PteRead(a, t, va)`: page tables are read from RAM only (R124); one memory event (R141). -/
def pteRead (a : PhysAddr) (t : AccessType) (va : Word) (s : State) : Access Word :=
  if inRam s.cfg a 4 then .ok (readBytes (interleave s).mem a.toNat 4) (interleave s) else .raise (accessFault t) va s

/-- The bits an access needs set in its leaf: A (6), and D (7) for a store (R128). -/
def adBits : AccessType → Word
  | .store => 0xC0#32
  | .fetch | .load => 0x40#32

/-- The needed bits set in the word at `a` as it is now (R128). -/
def orAD (a : PhysAddr) (t : AccessType) (s : State) : State :=
  { s with mem := writeBytes a.toNat (readBytes s.mem a.toNat 4 ||| adBits t) s.mem 4 }

/-- `UpdateAD(a, pte, t)`: an update only if a needed bit is missing in the entry that was read; then one indivisible OR
into the word at `a`, a memory event of its own (R128, R141). It clears no reservation (R323). -/
def updateAD (a : PhysAddr) (pte : Word) (t : AccessType) (s : State) : State :=
  if pte &&& adBits t = adBits t then s else orAD a t (interleave s)

/-- Step 4 of the walk: the level-0 entry at `a0` must be a permitted leaf (R123). -/
def walkLevel0 (a0 : PhysAddr) (va : Word) (t : AccessType) (eff : Priv) (s : State) : Access PhysAddr :=
  (pteRead a0 t va s).andThen fun pte s =>
    if pteInvalid pte then .raise (pageFault t) va s
    else if !pteLeaf pte then .raise (pageFault t) va s
    else if !permitted pte t eff s then .raise (pageFault t) va s
    else .ok (ptePpn pte ++ va.extractLsb' 0 12) (updateAD a0 pte t s)

/-- Address of the level-1 entry: `(satp.PPN << 12) + vpn1 * 4` in 34 bits (R123). -/
def level1Addr (ppn : BitVec 22) (va : Word) : PhysAddr := ppn ++ va.extractLsb' 22 10 ++ 0#2

/-- Address of the level-0 entry: `(pte.PPN << 12) + vpn0 * 4` in 34 bits (R123). -/
def level0Addr (ppn : BitVec 22) (va : Word) : PhysAddr := ppn ++ va.extractLsb' 12 10 ++ 0#2

/-- `Walk(va, t, eff)` (R123). -/
def walk (va : Word) (t : AccessType) (eff : Priv) (s : State) : Access PhysAddr :=
  let a1 := level1Addr (satpPpn s) va
  (pteRead a1 t va s).andThen fun pte s =>
    if pteInvalid pte then .raise (pageFault t) va s
    else if pteLeaf pte then
      if !permitted pte t eff s then .raise (pageFault t) va s
      else if ptePpn0 pte ≠ 0#10 then .raise (pageFault t) va s
      else .ok (ptePpn1 pte ++ va.extractLsb' 0 22) (updateAD a1 pte t s)
    else walkLevel0 (level0Addr (ptePpn pte) va) va t eff s

/-- `Translate(va, t)` (R120). -/
def translate (va : Word) (t : AccessType) (s : State) : Access PhysAddr :=
  let eff := effPriv t s
  if !satpMode s || eff = .machine then .ok (va.zeroExtend 34) s
  else
    match tlbLookup va t s with
    | some ppn => .ok (0#2 ++ ppn ++ va.extractLsb' 0 12) s
    | none => (walk va t eff s).andThen fun pa s => .ok pa (tlbFill va t pa s)

/-! ## Data accesses (R11, R104, R270) -/

/-- `va mod n == 0` (R104). -/
def aligned (va : Word) (w : Width) : Bool :=
  match w with
  | .byte => true
  | .half => va.extractLsb' 0 1 = 0#1
  | .word => va.extractLsb' 0 2 = 0#2

/-- `MemRead(va, n)` (R11): alignment, translation, physical read, in this order. -/
def memRead (va : Word) (w : Width) (s : State) : Access Word :=
  if !aligned va w then .raise .loadAddressMisaligned va s
  else
    (translate va .load s).andThen fun pa s =>
      match physRead pa w s with
      | (some v, s') => .ok v s'
      | (none, s') => .raise .loadAccessFault va s'

/-- `MemWrite(va, n, v)` (R11): alignment, translation, physical write with the reservation check. -/
def memWrite (va : Word) (w : Width) (v : Word) (s : State) : Access Unit :=
  if !aligned va w then .raise .storeAddressMisaligned va s
  else
    (translate va .store s).andThen fun pa s =>
      match physWrite pa w v s with
      | (true, s') => .ok () s'
      | (false, s') => .raise .storeAccessFault va s'

/-- Steps 1 to 3 of an atomic instruction: the physical address of its word, in RAM, and the state in which its one
memory event takes place (R325, R141, R142). -/
def atomicAddr (va : Word) (t : AccessType) (misaligned : Exception) (s : State) : Access PhysAddr :=
  if !aligned va .word then .raise misaligned va s
  else
    (translate va t s).andThen fun pa s =>
      if inRam s.cfg pa 4 then .ok pa (interleave s) else .raise (accessFault t) va s

/-! ## Taking an exception or an interrupt, and returning (R450 to R452, R403) -/

/-- The cause codes (R440). -/
def Exception.code : Exception → Nat
  | .instructionAccessFault => 1
  | .illegalInstruction => 2
  | .breakpoint => 3
  | .loadAddressMisaligned => 4
  | .loadAccessFault => 5
  | .storeAddressMisaligned => 6
  | .storeAccessFault => 7
  | .environmentCallFromU => 8
  | .environmentCallFromS => 9
  | .environmentCallFromM => 11
  | .instructionPageFault => 12
  | .loadPageFault => 13
  | .storePageFault => 15

/-- `ExceptionTarget(c)` (R451): medeleg, then sedeleg, never below the current privilege. -/
def exceptionTarget (c : Nat) (s : State) : Priv :=
  if Priv.above .machine s.priv && s.csr.medeleg.getLsbD c then
    if Priv.above .supervisor s.priv && s.csr.sedeleg.getLsbD c then .user else .supervisor
  else .machine

/-- `TrapVectorJump(p, cause)` (R452): `base`, and in vectored mode for an interrupt four times its number more. -/
def trapVectorJump (p : Priv) (cause : Word) (s : State) : State :=
  let base := s.csr.tvec.get p &&& 0xFFFFFFFC#32
  { s with
    evTrap := false
    pc := if (s.csr.tvec.get p).getLsbD 0 && cause.getLsbD 31 then base + (cause <<< 2) else base }

/-- The `status` of trap entry (R450): xPP gets the current privilege, xPIE the old xIE, xIE is cleared. -/
def trapStatus (p : Priv) (priv : Priv) (status : Word) : Word :=
  setBit (setBit (setPP status p priv) (pieBit p) (statusIE status p)) (ieBit p) false

/-- `TakeTrap(p, cause, tval, epcval)` (R450), the one way control enters a handler. -/
def takeTrap (p : Priv) (cause tval epcval : Word) (s : State) : State :=
  let s1 :=
    { s with
      csr :=
        { s.csr with
          epc := s.csr.epc.set p (epcval &&& 0xFFFFFFFE#32)
          cause := s.csr.cause.set p cause
          tval := s.csr.tval.set p tval
          status := trapStatus p s.priv s.csr.status }
      priv := p
      rsv := none
      evTrap := true }
  trapVectorJump p cause (contextFlush (translationContext s) s1)

/-- `raise E(t)` by the instruction at `pc` (R12, R470): the trap of the exception at its target privilege. -/
def raiseException (e : Exception) (tval : Word) (s : State) : State :=
  takeTrap (exceptionTarget e.code s) (BitVec.ofNat 32 e.code) tval s.pc s

/-- The `status` of `xRET` (R403): xIE gets xPIE, xPIE gets 1, xPP gets U. -/
def retStatus (x : Priv) (status : Word) : Word :=
  setPP (setBit (setBit status (ieBit x) (statusPIE status x)) (pieBit x) true) x .user

/-- The effect of `xRET` where the privilege allows it (R403). -/
def trapReturn (x : Priv) (s : State) : State :=
  let s1 :=
    { s with
      csr := { s.csr with status := retStatus x s.csr.status }
      priv := statusPP s.csr.status x
      pc := s.csr.epc.get x }
  selfSignal (contextFlush (translationContext s) s1)

/-! ## Interrupts (R461 to R465) -/

/-- The scan order: MEI, MSI, MTI, SEI, SSI, STI, UEI, USI, UTI (R461). -/
def interruptOrder : List Nat := [11, 3, 7, 9, 1, 5, 8, 0, 4]

/-- `InterruptTarget(i)`: mideleg, then sideleg, not bounded by the current privilege (R463). -/
def interruptTarget (i : Nat) (s : State) : Priv :=
  if s.csr.mideleg.getLsbD i then
    if s.csr.sideleg.getLsbD i then .user else .supervisor
  else .machine

/-- `Fires(i, wfi)` (R465). -/
def fires (i : Nat) (wfi : Bool) (s : State) : Bool :=
  let p := interruptTarget i s
  s.csr.ip.getLsbD i && s.csr.ie.getLsbD i
    && (p.above s.priv || (p = s.priv && (statusIE s.csr.status p || wfi)))

/-- `InterruptScan(wfi)`: the first interrupt of the order that fires (R464). -/
def interruptScan (wfi : Bool) (s : State) : Option Nat := interruptOrder.find? fun i => fires i wfi s

/-- `EventFold()` (R464): posted bits enter `ip`, the flags are cleared, the timer bit is reconciled. -/
def eventFold (s : State) : State :=
  let ip := s.csr.ip ||| s.evIntMask
  { s with
    csr := { s.csr with ip := if timerPending s then ip else setBit ip 7 false }
    evIntMask := 0#32
    evInt := false }

/-- Take interrupt `i`; `epcval` is the address of the next instruction to execute (R464). -/
def takeInterrupt (i : Nat) (epcval : Word) (s : State) : State :=
  takeTrap (interruptTarget i s) (0x80000000#32 ||| BitVec.ofNat 32 i) 0#32 epcval s

/-! ## The shapes instructions share -/

/-- The outcome of an instruction: commit the value, or take the exception; a next state either way. -/
def Access.finish {α : Type} (r : Access α) (commit : α → State → State) : Host.Outcome State Fault Refusal :=
  match r with
  | .ok a s => .next (commit a s)
  | .raise e t s => .next (raiseException e t s)

/-- `x[rd] <- v`, then the next instruction (R200). -/
def writeBack (rd : Reg) (v : Word) (len : Word) (s : State) : Host.Outcome State Fault Refusal :=
  .next (advance len (writeReg rd v s))

/-- Link and jump: `x[rd] <- pc + len; pc <- target` (R251, R252). -/
def jumpTo (rd : Reg) (target : Word) (len : Word) (s : State) : Host.Outcome State Fault Refusal :=
  .next (setPc target (writeReg rd (s.pc + len) s))

/-- A conditional branch relative to its own address (R250, R253). -/
def branchIf (cond : Bool) (off : Word) (len : Word) (s : State) : Host.Outcome State Fault Refusal :=
  .next (if cond then setPc (s.pc + off) s else advance len s)

/-- A load: `x[rd] <- ext(MemRead(va, n))` (R271 to R275). -/
def loadTo (rd : Reg) (va : Word) (w : Width) (ext : Width → Word → Word) (len : Word) (s : State) :
    Host.Outcome State Fault Refusal :=
  (memRead va w s).finish fun v s => advance len (writeReg rd (ext w v) s)

/-- A store: `MemWrite(va, n, v)` (R276 to R278). -/
def storeTo (va : Word) (w : Width) (v : Word) (len : Word) (s : State) : Host.Outcome State Fault Refusal :=
  (memWrite va w v s).finish fun _ s => advance len s

/-- The common AMO operation: read, combine, write, one event; then `x[rd] <- old` (R328). -/
def amo (f : Word → Word → Word) (rd rs2 rs1 : Reg) (s : State) : Host.Outcome State Fault Refusal :=
  (atomicAddr (readReg s rs1) .store .storeAddressMisaligned s).finish fun pa s1 =>
    let old := readBytes s1.mem pa.toNat 4
    advance 4#32 (writeReg rd old (ramWrite pa 4 (f old (readReg s rs2)) s1))

end Sys2Proof.Machine
end

