-- ==== Sys2Proof/Machine/Atomic.lean ====
section
/-! DEFINITION. The A extension (R320 to R340). `aq` and `rl` are accepted and ignored (R325, R142). -/

namespace Sys2Proof.Machine

/-- R326: the reservation is set on the physical address of the word loaded. -/
def execLrW (_aq _rl : Bool) (rd rs1 : Reg) (s : State) : Host.Outcome State Fault Refusal :=
  (atomicAddr (readReg s rs1) .load .loadAddressMisaligned s).finish fun pa s1 =>
    advance 4#32 (writeReg rd (readBytes s1.mem pa.toNat 4) { s1 with rsv := some pa })

/-- R327: it succeeds iff the reservation is valid on this word; the reservation is gone either way (R321). -/
def execScW (_aq _rl : Bool) (rd rs2 rs1 : Reg) (s : State) : Host.Outcome State Fault Refusal :=
  (atomicAddr (readReg s rs1) .store .storeAddressMisaligned s).finish fun pa s1 =>
    let ok : Bool := s1.rsv = some pa
    let s2 := if ok then ramWrite pa 4 (readReg s rs2) s1 else s1
    advance 4#32 (writeReg rd (if ok then 0#32 else 1#32) { s2 with rsv := none })

/-- R329 -/
def amoSwapValue (_old src : Word) : Word := src

/-- R329 -/
def execAmoswapW (_aq _rl : Bool) (rd rs2 rs1 : Reg) (s : State) : Host.Outcome State Fault Refusal :=
  amo amoSwapValue rd rs2 rs1 s

/-- R330 -/
def amoAddValue (old src : Word) : Word := old + src

/-- R330 -/
def execAmoaddW (_aq _rl : Bool) (rd rs2 rs1 : Reg) (s : State) : Host.Outcome State Fault Refusal :=
  amo amoAddValue rd rs2 rs1 s

/-- R331 -/
def amoXorValue (old src : Word) : Word := old ^^^ src

/-- R331 -/
def execAmoxorW (_aq _rl : Bool) (rd rs2 rs1 : Reg) (s : State) : Host.Outcome State Fault Refusal :=
  amo amoXorValue rd rs2 rs1 s

/-- R332 -/
def amoAndValue (old src : Word) : Word := old &&& src

/-- R332 -/
def execAmoandW (_aq _rl : Bool) (rd rs2 rs1 : Reg) (s : State) : Host.Outcome State Fault Refusal :=
  amo amoAndValue rd rs2 rs1 s

/-- R333 -/
def amoOrValue (old src : Word) : Word := old ||| src

/-- R333 -/
def execAmoorW (_aq _rl : Bool) (rd rs2 rs1 : Reg) (s : State) : Host.Outcome State Fault Refusal :=
  amo amoOrValue rd rs2 rs1 s

/-- R334 -/
def amoMinValue (old src : Word) : Word := if old.slt src then old else src

/-- R334 -/
def execAmominW (_aq _rl : Bool) (rd rs2 rs1 : Reg) (s : State) : Host.Outcome State Fault Refusal :=
  amo amoMinValue rd rs2 rs1 s

/-- R335 -/
def amoMaxValue (old src : Word) : Word := if src.slt old then old else src

/-- R335 -/
def execAmomaxW (_aq _rl : Bool) (rd rs2 rs1 : Reg) (s : State) : Host.Outcome State Fault Refusal :=
  amo amoMaxValue rd rs2 rs1 s

/-- R336 -/
def amoMinuValue (old src : Word) : Word := if old.ult src then old else src

/-- R336 -/
def execAmominuW (_aq _rl : Bool) (rd rs2 rs1 : Reg) (s : State) : Host.Outcome State Fault Refusal :=
  amo amoMinuValue rd rs2 rs1 s

/-- R337 -/
def amoMaxuValue (old src : Word) : Word := if src.ult old then old else src

/-- R337 -/
def execAmomaxuW (_aq _rl : Bool) (rd rs2 rs1 : Reg) (s : State) : Host.Outcome State Fault Refusal :=
  amo amoMaxuValue rd rs2 rs1 s

end Sys2Proof.Machine
end

