-- ==== Sys2Proof/Machine/Control.lean ====
section
/-! DEFINITION. RV32I control transfer (R250 to R259). -/

namespace Sys2Proof.Machine

/-- The target of JALR and its compressed forms: bit 0 cleared (R252). -/
def indirectTarget (base : Word) (off : Word) : Word := (base + off) &&& 0xFFFFFFFE#32

/-- R251 -/
def execJal (rd : Reg) (off : BitVec 21) (s : State) : Host.Outcome State Fault Refusal :=
  jumpTo rd (s.pc + sext off) 4#32 s

/-- R252: the base is read before the link is written. -/
def execJalr (rd rs1 : Reg) (imm : BitVec 12) (s : State) : Host.Outcome State Fault Refusal :=
  jumpTo rd (indirectTarget (readReg s rs1) (sext imm)) 4#32 s

/-- R253 -/
def execBeq (rs1 rs2 : Reg) (off : BitVec 13) (s : State) : Host.Outcome State Fault Refusal :=
  branchIf (readReg s rs1 == readReg s rs2) (sext off) 4#32 s

/-- R254 -/
def execBne (rs1 rs2 : Reg) (off : BitVec 13) (s : State) : Host.Outcome State Fault Refusal :=
  branchIf (readReg s rs1 != readReg s rs2) (sext off) 4#32 s

/-- R255 -/
def execBlt (rs1 rs2 : Reg) (off : BitVec 13) (s : State) : Host.Outcome State Fault Refusal :=
  branchIf ((readReg s rs1).slt (readReg s rs2)) (sext off) 4#32 s

/-- R256 -/
def execBge (rs1 rs2 : Reg) (off : BitVec 13) (s : State) : Host.Outcome State Fault Refusal :=
  branchIf ((readReg s rs2).sle (readReg s rs1)) (sext off) 4#32 s

/-- R257 -/
def execBltu (rs1 rs2 : Reg) (off : BitVec 13) (s : State) : Host.Outcome State Fault Refusal :=
  branchIf ((readReg s rs1).ult (readReg s rs2)) (sext off) 4#32 s

/-- R258 -/
def execBgeu (rs1 rs2 : Reg) (off : BitVec 13) (s : State) : Host.Outcome State Fault Refusal :=
  branchIf ((readReg s rs2).ule (readReg s rs1)) (sext off) 4#32 s

end Sys2Proof.Machine
end

