-- ==== Sys2Proof/Machine/Integer.lean ====
section
/-! DEFINITION. RV32I integer computational instructions (R200 to R223). -/

namespace Sys2Proof.Machine

/-- 1 or 0: the result of a comparison (R222). -/
def boolWord (b : Bool) : Word := if b then 1#32 else 0#32

/-- A shift amount taken from a register: its low five bits (R222). -/
def shiftAmount (v : Word) : Nat := (v.extractLsb' 0 5).toNat

/-- R201 -/
def execLui (rd : Reg) (imm : BitVec 20) (s : State) : Host.Outcome State Fault Refusal :=
  writeBack rd (upperImm imm) 4#32 s

/-- R202 -/
def execAuipc (rd : Reg) (imm : BitVec 20) (s : State) : Host.Outcome State Fault Refusal :=
  writeBack rd (s.pc + upperImm imm) 4#32 s

/-- R203 -/
def execAddi (rd rs1 : Reg) (imm : BitVec 12) (s : State) : Host.Outcome State Fault Refusal :=
  writeBack rd (readReg s rs1 + sext imm) 4#32 s

/-- R204 -/
def execSlti (rd rs1 : Reg) (imm : BitVec 12) (s : State) : Host.Outcome State Fault Refusal :=
  writeBack rd (boolWord ((readReg s rs1).slt (sext imm))) 4#32 s

/-- R205: the immediate is sign-extended first and compared unsigned. -/
def execSltiu (rd rs1 : Reg) (imm : BitVec 12) (s : State) : Host.Outcome State Fault Refusal :=
  writeBack rd (boolWord ((readReg s rs1).ult (sext imm))) 4#32 s

/-- R206 -/
def execXori (rd rs1 : Reg) (imm : BitVec 12) (s : State) : Host.Outcome State Fault Refusal :=
  writeBack rd (readReg s rs1 ^^^ sext imm) 4#32 s

/-- R207 -/
def execOri (rd rs1 : Reg) (imm : BitVec 12) (s : State) : Host.Outcome State Fault Refusal :=
  writeBack rd (readReg s rs1 ||| sext imm) 4#32 s

/-- R208 -/
def execAndi (rd rs1 : Reg) (imm : BitVec 12) (s : State) : Host.Outcome State Fault Refusal :=
  writeBack rd (readReg s rs1 &&& sext imm) 4#32 s

/-- R209 -/
def execSlli (rd rs1 : Reg) (shamt : BitVec 5) (s : State) : Host.Outcome State Fault Refusal :=
  writeBack rd (readReg s rs1 <<< shamt.toNat) 4#32 s

/-- R210 -/
def execSrli (rd rs1 : Reg) (shamt : BitVec 5) (s : State) : Host.Outcome State Fault Refusal :=
  writeBack rd (readReg s rs1 >>> shamt.toNat) 4#32 s

/-- R211 -/
def execSrai (rd rs1 : Reg) (shamt : BitVec 5) (s : State) : Host.Outcome State Fault Refusal :=
  writeBack rd ((readReg s rs1).sshiftRight shamt.toNat) 4#32 s

/-- R212 -/
def execAdd (rd rs1 rs2 : Reg) (s : State) : Host.Outcome State Fault Refusal :=
  writeBack rd (readReg s rs1 + readReg s rs2) 4#32 s

/-- R213 -/
def execSub (rd rs1 rs2 : Reg) (s : State) : Host.Outcome State Fault Refusal :=
  writeBack rd (readReg s rs1 - readReg s rs2) 4#32 s

/-- R214 -/
def execSll (rd rs1 rs2 : Reg) (s : State) : Host.Outcome State Fault Refusal :=
  writeBack rd (readReg s rs1 <<< shiftAmount (readReg s rs2)) 4#32 s

/-- R215 -/
def execSlt (rd rs1 rs2 : Reg) (s : State) : Host.Outcome State Fault Refusal :=
  writeBack rd (boolWord ((readReg s rs1).slt (readReg s rs2))) 4#32 s

/-- R216 -/
def execSltu (rd rs1 rs2 : Reg) (s : State) : Host.Outcome State Fault Refusal :=
  writeBack rd (boolWord ((readReg s rs1).ult (readReg s rs2))) 4#32 s

/-- R217 -/
def execXor (rd rs1 rs2 : Reg) (s : State) : Host.Outcome State Fault Refusal :=
  writeBack rd (readReg s rs1 ^^^ readReg s rs2) 4#32 s

/-- R218 -/
def execSrl (rd rs1 rs2 : Reg) (s : State) : Host.Outcome State Fault Refusal :=
  writeBack rd (readReg s rs1 >>> shiftAmount (readReg s rs2)) 4#32 s

/-- R219 -/
def execSra (rd rs1 rs2 : Reg) (s : State) : Host.Outcome State Fault Refusal :=
  writeBack rd ((readReg s rs1).sshiftRight (shiftAmount (readReg s rs2))) 4#32 s

/-- R220 -/
def execOr (rd rs1 rs2 : Reg) (s : State) : Host.Outcome State Fault Refusal :=
  writeBack rd (readReg s rs1 ||| readReg s rs2) 4#32 s

/-- R221 -/
def execAnd (rd rs1 rs2 : Reg) (s : State) : Host.Outcome State Fault Refusal :=
  writeBack rd (readReg s rs1 &&& readReg s rs2) 4#32 s

end Sys2Proof.Machine
end

