-- ==== Sys2Proof/Machine/Compressed.lean ====
section
/-! DEFINITION. The C extension (R350 to R380): each instruction has the effect of its expansion with length 2, so
the next pc and the link are pc + 2 (R350). -/

namespace Sys2Proof.Machine

/-- R379: the all-zero halfword raises IllegalInstruction with its bits, 0, in tval. -/
def execCIllegal (s : State) : Host.Outcome State Fault Refusal :=
  .next (raiseException .illegalInstruction 0#32 s)

/-- R352: `addi rd', x2, nzuimm` -/
def execCAddi4spn (rd : Reg) (nzuimm : BitVec 10) (s : State) : Host.Outcome State Fault Refusal :=
  writeBack rd (readReg s 2#5 + zext nzuimm) 2#32 s

/-- R353: `lw rd', uimm(rs1')` -/
def execCLw (rd rs1 : Reg) (uimm : BitVec 7) (s : State) : Host.Outcome State Fault Refusal :=
  loadTo rd (effAddr rs1 (zext uimm) s) .word signedLoad 2#32 s

/-- R354: `sw rs2', uimm(rs1')` -/
def execCSw (rs2 rs1 : Reg) (uimm : BitVec 7) (s : State) : Host.Outcome State Fault Refusal :=
  storeTo (effAddr rs1 (zext uimm) s) .word (readReg s rs2) 2#32 s

/-- R355: `addi x0, x0, imm`, no effect -/
def execCNop (imm : BitVec 6) (s : State) : Host.Outcome State Fault Refusal :=
  writeBack 0#5 (readReg s 0#5 + sext imm) 2#32 s

/-- R356: `addi rd, rd, imm` -/
def execCAddi (rd : Reg) (imm : BitVec 6) (s : State) : Host.Outcome State Fault Refusal :=
  writeBack rd (readReg s rd + sext imm) 2#32 s

/-- R357: `jal x1, imm` with link pc + 2 -/
def execCJal (off : BitVec 12) (s : State) : Host.Outcome State Fault Refusal :=
  jumpTo 1#5 (s.pc + sext off) 2#32 s

/-- R358: `addi rd, x0, imm` -/
def execCLi (rd : Reg) (imm : BitVec 6) (s : State) : Host.Outcome State Fault Refusal :=
  writeBack rd (readReg s 0#5 + sext imm) 2#32 s

/-- R359: `addi x2, x2, imm` -/
def execCAddi16sp (nzimm : BitVec 10) (s : State) : Host.Outcome State Fault Refusal :=
  writeBack 2#5 (readReg s 2#5 + sext nzimm) 2#32 s

/-- R360: `lui rd, imm[31:12]` -/
def execCLui (rd : Reg) (nzimm : BitVec 6) (s : State) : Host.Outcome State Fault Refusal :=
  writeBack rd (cLuiImm nzimm) 2#32 s

/-- R361: `srli rd', rd', shamt` -/
def execCSrli (rd : Reg) (shamt : BitVec 5) (s : State) : Host.Outcome State Fault Refusal :=
  writeBack rd (readReg s rd >>> shamt.toNat) 2#32 s

/-- R362: `srai rd', rd', shamt` -/
def execCSrai (rd : Reg) (shamt : BitVec 5) (s : State) : Host.Outcome State Fault Refusal :=
  writeBack rd ((readReg s rd).sshiftRight shamt.toNat) 2#32 s

/-- R363: `andi rd', rd', imm` -/
def execCAndi (rd : Reg) (imm : BitVec 6) (s : State) : Host.Outcome State Fault Refusal :=
  writeBack rd (readReg s rd &&& sext imm) 2#32 s

/-- R364: `sub rd', rd', rs2'` -/
def execCSub (rd rs2 : Reg) (s : State) : Host.Outcome State Fault Refusal :=
  writeBack rd (readReg s rd - readReg s rs2) 2#32 s

/-- R365: `xor rd', rd', rs2'` -/
def execCXor (rd rs2 : Reg) (s : State) : Host.Outcome State Fault Refusal :=
  writeBack rd (readReg s rd ^^^ readReg s rs2) 2#32 s

/-- R366: `or rd', rd', rs2'` -/
def execCOr (rd rs2 : Reg) (s : State) : Host.Outcome State Fault Refusal :=
  writeBack rd (readReg s rd ||| readReg s rs2) 2#32 s

/-- R367: `and rd', rd', rs2'` -/
def execCAnd (rd rs2 : Reg) (s : State) : Host.Outcome State Fault Refusal :=
  writeBack rd (readReg s rd &&& readReg s rs2) 2#32 s

/-- R368: `jal x0, imm` -/
def execCJ (off : BitVec 12) (s : State) : Host.Outcome State Fault Refusal :=
  jumpTo 0#5 (s.pc + sext off) 2#32 s

/-- R369: `beq rs1', x0, imm` -/
def execCBeqz (rs1 : Reg) (off : BitVec 9) (s : State) : Host.Outcome State Fault Refusal :=
  branchIf (readReg s rs1 == 0#32) (sext off) 2#32 s

/-- R370: `bne rs1', x0, imm` -/
def execCBnez (rs1 : Reg) (off : BitVec 9) (s : State) : Host.Outcome State Fault Refusal :=
  branchIf (readReg s rs1 != 0#32) (sext off) 2#32 s

/-- R371: `slli rd, rd, shamt` -/
def execCSlli (rd : Reg) (shamt : BitVec 5) (s : State) : Host.Outcome State Fault Refusal :=
  writeBack rd (readReg s rd <<< shamt.toNat) 2#32 s

/-- R372: `lw rd, uimm(x2)` -/
def execCLwsp (rd : Reg) (uimm : BitVec 8) (s : State) : Host.Outcome State Fault Refusal :=
  loadTo rd (effAddr 2#5 (zext uimm) s) .word signedLoad 2#32 s

/-- R373: `jalr x0, 0(rs1)` -/
def execCJr (rs1 : Reg) (s : State) : Host.Outcome State Fault Refusal :=
  jumpTo 0#5 (indirectTarget (readReg s rs1) 0#32) 2#32 s

/-- R374: `add rd, x0, rs2` -/
def execCMv (rd rs2 : Reg) (s : State) : Host.Outcome State Fault Refusal :=
  writeBack rd (readReg s 0#5 + readReg s rs2) 2#32 s

/-- R375: `ebreak` -/
def execCEbreak (s : State) : Host.Outcome State Fault Refusal := .next (raiseException .breakpoint 0#32 s)

/-- R376: `jalr x1, 0(rs1)` with link pc + 2 -/
def execCJalr (rs1 : Reg) (s : State) : Host.Outcome State Fault Refusal :=
  jumpTo 1#5 (indirectTarget (readReg s rs1) 0#32) 2#32 s

/-- R377: `add rd, rd, rs2` -/
def execCAdd (rd rs2 : Reg) (s : State) : Host.Outcome State Fault Refusal :=
  writeBack rd (readReg s rd + readReg s rs2) 2#32 s

/-- R378: `sw rs2, uimm(x2)` -/
def execCSwsp (rs2 : Reg) (uimm : BitVec 8) (s : State) : Host.Outcome State Fault Refusal :=
  storeTo (effAddr 2#5 (zext uimm) s) .word (readReg s rs2) 2#32 s

end Sys2Proof.Machine
end

