-- ==== Sys2Proof/Machine/LoadStore.lean ====
section
/-! DEFINITION. RV32I loads, stores and fences (R270 to R292). -/

namespace Sys2Proof.Machine

/-- R271 -/
def execLb (rd rs1 : Reg) (imm : BitVec 12) (s : State) : Host.Outcome State Fault Refusal :=
  loadTo rd (effAddr rs1 (sext imm) s) .byte signedLoad 4#32 s

/-- R272 -/
def execLh (rd rs1 : Reg) (imm : BitVec 12) (s : State) : Host.Outcome State Fault Refusal :=
  loadTo rd (effAddr rs1 (sext imm) s) .half signedLoad 4#32 s

/-- R273 -/
def execLw (rd rs1 : Reg) (imm : BitVec 12) (s : State) : Host.Outcome State Fault Refusal :=
  loadTo rd (effAddr rs1 (sext imm) s) .word signedLoad 4#32 s

/-- R274 -/
def execLbu (rd rs1 : Reg) (imm : BitVec 12) (s : State) : Host.Outcome State Fault Refusal :=
  loadTo rd (effAddr rs1 (sext imm) s) .byte unsignedLoad 4#32 s

/-- R275 -/
def execLhu (rd rs1 : Reg) (imm : BitVec 12) (s : State) : Host.Outcome State Fault Refusal :=
  loadTo rd (effAddr rs1 (sext imm) s) .half unsignedLoad 4#32 s

/-- R276 -/
def execSb (rs2 rs1 : Reg) (imm : BitVec 12) (s : State) : Host.Outcome State Fault Refusal :=
  storeTo (effAddr rs1 (sext imm) s) .byte (readReg s rs2) 4#32 s

/-- R277 -/
def execSh (rs2 rs1 : Reg) (imm : BitVec 12) (s : State) : Host.Outcome State Fault Refusal :=
  storeTo (effAddr rs1 (sext imm) s) .half (readReg s rs2) 4#32 s

/-- R278 -/
def execSw (rs2 rs1 : Reg) (imm : BitVec 12) (s : State) : Host.Outcome State Fault Refusal :=
  storeTo (effAddr rs1 (sext imm) s) .word (readReg s rs2) 4#32 s

/-- FENCE orders nothing beyond the total order of R140 and ignores every field: no operation (R290, R143). -/
def execFence (_fm _pred _succ : BitVec 4) (_rs1 _rd : Reg) (s : State) : Host.Outcome State Fault Refusal :=
  .next (advance 4#32 s)

/-- FENCE.I: fetch always reads RAM, so there is nothing to synchronise (R291, R144). -/
def execFenceI (_imm : BitVec 12) (_rs1 _rd : Reg) (s : State) : Host.Outcome State Fault Refusal :=
  .next (advance 4#32 s)

end Sys2Proof.Machine
end

