-- ==== Sys2Proof/Machine/MulDiv.lean ====
section
/-! DEFINITION. The M extension (R300 to R311): exact integer arithmetic, then the low or high 32 bits. -/

namespace Sys2Proof.Machine

/-- `n mod 2^32` (R301). -/
def low32 (n : Int) : Word := BitVec.ofInt 32 n

/-- `floor(n / 2^32) mod 2^32` (R301). -/
def high32 (n : Int) : Word := BitVec.ofInt 32 (n.fdiv (2 ^ 32))

/-- `0x8000_0000`, signed -2^31 (R301). -/
def intMin : Word := 0x80000000#32

/-- Signed quotient: all ones for a zero divisor, the dividend on overflow, else truncated (R305). -/
def signedQuotient (a b : Word) : Word :=
  if b = 0#32 then 0xFFFFFFFF#32
  else if a = intMin ∧ b = 0xFFFFFFFF#32 then intMin
  else low32 (a.toInt.tdiv b.toInt)

/-- Unsigned quotient (R306). -/
def unsignedQuotient (a b : Word) : Word :=
  if b = 0#32 then 0xFFFFFFFF#32 else BitVec.ofNat 32 (a.toNat / b.toNat)

/-- Signed remainder: the dividend for a zero divisor, 0 on overflow (R307). -/
def signedRemainder (a b : Word) : Word :=
  if b = 0#32 then a
  else if a = intMin ∧ b = 0xFFFFFFFF#32 then 0#32
  else low32 (a.toInt - b.toInt * a.toInt.tdiv b.toInt)

/-- Unsigned remainder (R308). -/
def unsignedRemainder (a b : Word) : Word :=
  if b = 0#32 then a else BitVec.ofNat 32 (a.toNat % b.toNat)

/-- R302 -/
def execMul (rd rs1 rs2 : Reg) (s : State) : Host.Outcome State Fault Refusal :=
  writeBack rd (low32 ((readReg s rs1).toNat * (readReg s rs2).toNat)) 4#32 s

/-- R303 -/
def execMulh (rd rs1 rs2 : Reg) (s : State) : Host.Outcome State Fault Refusal :=
  writeBack rd (high32 ((readReg s rs1).toInt * (readReg s rs2).toInt)) 4#32 s

/-- R304: rs1 signed, rs2 unsigned. -/
def execMulhsu (rd rs1 rs2 : Reg) (s : State) : Host.Outcome State Fault Refusal :=
  writeBack rd (high32 ((readReg s rs1).toInt * (readReg s rs2).toNat)) 4#32 s

/-- R309 -/
def execMulhu (rd rs1 rs2 : Reg) (s : State) : Host.Outcome State Fault Refusal :=
  writeBack rd (high32 ((readReg s rs1).toNat * (readReg s rs2).toNat)) 4#32 s

/-- R305 -/
def execDiv (rd rs1 rs2 : Reg) (s : State) : Host.Outcome State Fault Refusal :=
  writeBack rd (signedQuotient (readReg s rs1) (readReg s rs2)) 4#32 s

/-- R306 -/
def execDivu (rd rs1 rs2 : Reg) (s : State) : Host.Outcome State Fault Refusal :=
  writeBack rd (unsignedQuotient (readReg s rs1) (readReg s rs2)) 4#32 s

/-- R307 -/
def execRem (rd rs1 rs2 : Reg) (s : State) : Host.Outcome State Fault Refusal :=
  writeBack rd (signedRemainder (readReg s rs1) (readReg s rs2)) 4#32 s

/-- R308 -/
def execRemu (rd rs1 rs2 : Reg) (s : State) : Host.Outcome State Fault Refusal :=
  writeBack rd (unsignedRemainder (readReg s rs1) (readReg s rs2)) 4#32 s

end Sys2Proof.Machine
end

