-- ==== Sys2Proof/Machine/Csr.lean ====
section
/-! DEFINITION. The CSR file: the map of implemented CSRs (R37), the access check (R33), the masked access with its
side effects (R31, R41), and the operation the six CSR instructions share (R410, R411, R418). -/

namespace Sys2Proof.Machine

/-- The underlying storage of a CSR (R32, R36), or a constant (R61). -/
inductive CsrStorage where
  | status
  | ie
  | ip
  | tvec (p : Priv)
  | epc (p : Priv)
  | cause (p : Priv)
  | tval (p : Priv)
  | scratch (p : Priv)
  | medeleg
  | sedeleg
  | mideleg
  | sideleg
  | mcounteren
  | scounteren
  | satp
  | hartid
  | constant (w : Word)
  deriving DecidableEq, Repr

/-- The side effect of a write (R37). -/
inductive CsrEffect where
  | none
  /-- S1: flush the TLB if the translation context changed, then self-signal. -/
  | contextAndSignal
  /-- S2: self-signal. -/
  | signal
  /-- S3: flush the TLB. -/
  | flush
  deriving DecidableEq, Repr

/-- One row of the CSR map (R37). -/
structure CsrRow where
  addr : CsrAddr
  storage : CsrStorage
  rmask : Word
  wmask : Word
  effect : CsrEffect
  deriving DecidableEq, Repr

/-- U-level CSRs: ustatus, uie, utvec, uscratch, uepc, ucause, utval, uip (R37). -/
def userCsrs : List CsrRow :=
  [ ⟨0x000#12, .status, 0x00000011#32, 0x00000011#32, .contextAndSignal⟩,
    ⟨0x004#12, .ie, 0x00000111#32, 0x00000111#32, .signal⟩,
    ⟨0x005#12, .tvec .user, 0xFFFFFFFF#32, 0xFFFFFFFF#32, .none⟩,
    ⟨0x040#12, .scratch .user, 0xFFFFFFFF#32, 0xFFFFFFFF#32, .none⟩,
    ⟨0x041#12, .epc .user, 0xFFFFFFFE#32, 0xFFFFFFFE#32, .none⟩,
    ⟨0x042#12, .cause .user, 0xFFFFFFFF#32, 0xFFFFFFFF#32, .none⟩,
    ⟨0x043#12, .tval .user, 0xFFFFFFFF#32, 0xFFFFFFFF#32, .none⟩,
    ⟨0x044#12, .ip, 0x00000111#32, 0x00000111#32, .signal⟩ ]

/-- S-level CSRs: sstatus, sedeleg, sideleg, sie, stvec, scounteren, sscratch, sepc, scause, stval, sip, satp (R37). -/
def supervisorCsrs : List CsrRow :=
  [ ⟨0x100#12, .status, 0x000C0133#32, 0x000C0133#32, .contextAndSignal⟩,
    ⟨0x102#12, .sedeleg, 0x0000B1FF#32, 0x0000B1FF#32, .none⟩,
    ⟨0x103#12, .sideleg, 0x00000111#32, 0x00000111#32, .signal⟩,
    ⟨0x104#12, .ie, 0x00000333#32, 0x00000333#32, .signal⟩,
    ⟨0x105#12, .tvec .supervisor, 0xFFFFFFFF#32, 0xFFFFFFFF#32, .none⟩,
    ⟨0x106#12, .scounteren, 0xFFFFFFFF#32, 0xFFFFFFFF#32, .none⟩,
    ⟨0x140#12, .scratch .supervisor, 0xFFFFFFFF#32, 0xFFFFFFFF#32, .none⟩,
    ⟨0x141#12, .epc .supervisor, 0xFFFFFFFE#32, 0xFFFFFFFE#32, .none⟩,
    ⟨0x142#12, .cause .supervisor, 0xFFFFFFFF#32, 0xFFFFFFFF#32, .none⟩,
    ⟨0x143#12, .tval .supervisor, 0xFFFFFFFF#32, 0xFFFFFFFF#32, .none⟩,
    ⟨0x144#12, .ip, 0x00000333#32, 0x00000333#32, .signal⟩,
    ⟨0x180#12, .satp, 0x803FFFFF#32, 0x803FFFFF#32, .flush⟩ ]

/-- M-level CSRs: mstatus, misa, medeleg, mideleg, mie, mtvec, mcounteren, mscratch, mepc, mcause, mtval, mip,
mvendorid, marchid, mimpid, mhartid (R37, R61). -/
def machineCsrs : List CsrRow :=
  [ ⟨0x300#12, .status, 0x000E19BB#32, 0x000E19BB#32, .contextAndSignal⟩,
    ⟨0x301#12, .constant 0x40143105#32, 0xFFFFFFFF#32, 0x00000000#32, .none⟩,
    ⟨0x302#12, .medeleg, 0x0000B3FF#32, 0x0000B3FF#32, .none⟩,
    ⟨0x303#12, .mideleg, 0x00000333#32, 0x00000333#32, .signal⟩,
    ⟨0x304#12, .ie, 0x00000BBB#32, 0x00000BBB#32, .signal⟩,
    ⟨0x305#12, .tvec .machine, 0xFFFFFFFF#32, 0xFFFFFFFF#32, .none⟩,
    ⟨0x306#12, .mcounteren, 0xFFFFFFFF#32, 0xFFFFFFFF#32, .none⟩,
    ⟨0x340#12, .scratch .machine, 0xFFFFFFFF#32, 0xFFFFFFFF#32, .none⟩,
    ⟨0x341#12, .epc .machine, 0xFFFFFFFE#32, 0xFFFFFFFE#32, .none⟩,
    ⟨0x342#12, .cause .machine, 0xFFFFFFFF#32, 0xFFFFFFFF#32, .none⟩,
    ⟨0x343#12, .tval .machine, 0xFFFFFFFF#32, 0xFFFFFFFF#32, .none⟩,
    ⟨0x344#12, .ip, 0x00000BBB#32, 0x00000BBB#32, .signal⟩,
    ⟨0xF11#12, .constant 0x00000000#32, 0xFFFFFFFF#32, 0x00000000#32, .none⟩,
    ⟨0xF12#12, .constant 0x00000000#32, 0xFFFFFFFF#32, 0x00000000#32, .none⟩,
    ⟨0xF13#12, .constant 0x00000000#32, 0xFFFFFFFF#32, 0x00000000#32, .none⟩,
    ⟨0xF14#12, .hartid, 0xFFFFFFFF#32, 0x00000000#32, .none⟩ ]

/-- The implemented CSRs; every other address is an illegal stub (R30, R37, R62). -/
def csrTable : List CsrRow := userCsrs ++ supervisorCsrs ++ machineCsrs

/-- The slot of an address, `none` for the illegal stub (R30). -/
def csrFind (a : CsrAddr) : Option CsrRow := csrTable.find? fun r => r.addr = a

/-- The stored word of a storage register. -/
def readStorage (c : CsrFile) : CsrStorage → Word
  | .status => c.status
  | .ie => c.ie
  | .ip => c.ip
  | .tvec p => c.tvec.get p
  | .epc p => c.epc.get p
  | .cause p => c.cause.get p
  | .tval p => c.tval.get p
  | .scratch p => c.scratch.get p
  | .medeleg => c.medeleg
  | .sedeleg => c.sedeleg
  | .mideleg => c.mideleg
  | .sideleg => c.sideleg
  | .mcounteren => c.mcounteren
  | .scounteren => c.scounteren
  | .satp => c.satp
  | .hartid => c.hartid
  | .constant w => w

/-- Store a word; a constant ignores it (R61). -/
def writeStorage (c : CsrFile) (st : CsrStorage) (v : Word) : CsrFile :=
  match st with
  | .status => { c with status := v }
  | .ie => { c with ie := v }
  | .ip => { c with ip := v }
  | .tvec p => { c with tvec := c.tvec.set p v }
  | .epc p => { c with epc := c.epc.set p v }
  | .cause p => { c with cause := c.cause.set p v }
  | .tval p => { c with tval := c.tval.set p v }
  | .scratch p => { c with scratch := c.scratch.set p v }
  | .medeleg => { c with medeleg := v }
  | .sedeleg => { c with sedeleg := v }
  | .mideleg => { c with mideleg := v }
  | .sideleg => { c with sideleg := v }
  | .mcounteren => { c with mcounteren := v }
  | .scounteren => { c with scounteren := v }
  | .satp => { c with satp := v }
  | .hartid => { c with hartid := v }
  | .constant _ => c

/-- The four operations (R31). -/
inductive CsrOp where
  | read
  | write
  | set
  | clear
  deriving DecidableEq, Repr

/-- Privilege, existence and read-only check: the row if the access is allowed (R33). -/
def csrCheck (a : CsrAddr) (op : CsrOp) (priv : Priv) : Option CsrRow :=
  if priv.code.ult (a.extractLsb' 8 2) then none
  else
    match csrFind a with
    | none => none
    | some row => if a.extractLsb' 10 2 = 3#2 ∧ op ≠ .read then none else some row

/-- The value to be written (R31). -/
def csrNewValue (op : CsrOp) (old src : Word) : Word :=
  match op with
  | .read => old
  | .write => src
  | .set => old ||| src
  | .clear => old &&& ~~~src

/-- The write mask in force: a write of 2 to MPP through mstatus leaves MPP (R41). No other view writes MPP. -/
def csrWriteMask (row : CsrRow) (new : Word) : Word :=
  if row.storage = .status ∧ statusMPP new = 2#2 then row.wmask &&& ~~~0x00001800#32 else row.wmask

/-- The side effect of a write that began in context `ctx0` (R37, R134, R466). -/
def csrEffect (e : CsrEffect) (ctx0 : TranslationContext) (s : State) : State :=
  match e with
  | .none => s
  | .contextAndSignal => selfSignal (contextFlush ctx0 s)
  | .signal => selfSignal s
  | .flush => flushTlb s

/-- The value a CSR reads as: its storage under the read mask (R31). -/
def csrValue (row : CsrRow) (s : State) : Word := readStorage s.csr row.storage &&& row.rmask

/-- `CsrAccess` (R31): the state after the access; a `read` writes nothing and has no side effect. -/
def csrAccess (row : CsrRow) (op : CsrOp) (src : Word) (s : State) : State :=
  if op = .read then s
  else
    let new := csrNewValue op (csrValue row s) src
    let mask := csrWriteMask row new
    let stored := (readStorage s.csr row.storage &&& ~~~mask) ||| (new &&& mask)
    csrEffect row.effect (translationContext s) { s with csr := writeStorage s.csr row.storage stored }

/-- What the six CSR instructions share (R410): check, access, `x[rd] <- old`; `insn` is the instruction word that an
illegal access reports in tval (R33). -/
def csrInstruction (a : CsrAddr) (op : CsrOp) (src : Word) (rd : Reg) (insn : Word) (s : State) :
    Host.Outcome State Fault Refusal :=
  match csrCheck a op s.priv with
  | none => .next (raiseException .illegalInstruction insn s)
  | some row => writeBack rd (csrValue row s) 4#32 (csrAccess row op src s)

end Sys2Proof.Machine
end

