-- ==== Sys2Proof/Machine/System.lean ====
section
/-! DEFINITION. System, privileged and CSR instructions (R400 to R419). -/

namespace Sys2Proof.Machine

/-- The environment call of the current privilege (R401). -/
def environmentCall : Priv → Exception
  | .user => .environmentCallFromU
  | .supervisor => .environmentCallFromS
  | .machine => .environmentCallFromM

/-- `XRet(x)`: illegal below level `x`, else the return (R403). `insn` is the instruction word. -/
def xRet (x : Priv) (insn : Word) (s : State) : Host.Outcome State Fault Refusal :=
  if x.above s.priv then .next (raiseException .illegalInstruction insn s) else .next (trapReturn x s)

/-- The operation of CSRRS, CSRRC and their immediate forms: a `read` when the field insn[19:15] is 0 (R411). -/
def readIfZero (field : BitVec 5) (op : CsrOp) : CsrOp := if field = 0#5 then .read else op

/-- R401: the trap is the effect; the instruction never completes otherwise. -/
def execEcall (s : State) : Host.Outcome State Fault Refusal :=
  .next (raiseException (environmentCall s.priv) 0#32 s)

/-- R402 -/
def execEbreak (s : State) : Host.Outcome State Fault Refusal := .next (raiseException .breakpoint 0#32 s)

/-- R404: legal in every mode. -/
def execUret (s : State) : Host.Outcome State Fault Refusal := xRet .user (encode .uret).bits s

/-- R405 -/
def execSret (s : State) : Host.Outcome State Fault Refusal := xRet .supervisor (encode .sret).bits s

/-- R406 -/
def execMret (s : State) : Host.Outcome State Fault Refusal := xRet .machine (encode .mret).bits s

/-- R407: fold, scan with the relaxed condition; take the interrupt with the address after the WFI, or park. -/
def execWfi (s : State) : Host.Outcome State Fault Refusal :=
  let s1 := eventFold s
  match interruptScan true s1 with
  | some i => .next (takeInterrupt i (s1.pc + 4#32) s1)
  | none => .next { s1 with parked := true }

/-- R408: every entry of this hart's TLB, whatever the operands. -/
def execSfenceVma (rs1 rs2 : Reg) (s : State) : Host.Outcome State Fault Refusal :=
  if Priv.above .supervisor s.priv then
    .next (raiseException .illegalInstruction (encode (.sfenceVma rs1 rs2)).bits s)
  else .next (advance 4#32 (flushTlb s))

/-- R412 -/
def execCsrrw (rd : Reg) (csr : CsrAddr) (rs1 : Reg) (s : State) : Host.Outcome State Fault Refusal :=
  csrInstruction csr .write (readReg s rs1) rd (encode (.csrrw rd csr rs1)).bits s

/-- R413: a `read` when the rs1 FIELD is 0, whatever the register's value (R411). -/
def execCsrrs (rd : Reg) (csr : CsrAddr) (rs1 : Reg) (s : State) : Host.Outcome State Fault Refusal :=
  csrInstruction csr (readIfZero rs1 .set) (readReg s rs1) rd (encode (.csrrs rd csr rs1)).bits s

/-- R414 -/
def execCsrrc (rd : Reg) (csr : CsrAddr) (rs1 : Reg) (s : State) : Host.Outcome State Fault Refusal :=
  csrInstruction csr (readIfZero rs1 .clear) (readReg s rs1) rd (encode (.csrrc rd csr rs1)).bits s

/-- R415 -/
def execCsrrwi (rd : Reg) (csr : CsrAddr) (uimm : BitVec 5) (s : State) : Host.Outcome State Fault Refusal :=
  csrInstruction csr .write (zext uimm) rd (encode (.csrrwi rd csr uimm)).bits s

/-- R416 -/
def execCsrrsi (rd : Reg) (csr : CsrAddr) (uimm : BitVec 5) (s : State) : Host.Outcome State Fault Refusal :=
  csrInstruction csr (readIfZero uimm .set) (zext uimm) rd (encode (.csrrsi rd csr uimm)).bits s

/-- R417 -/
def execCsrrci (rd : Reg) (csr : CsrAddr) (uimm : BitVec 5) (s : State) : Host.Outcome State Fault Refusal :=
  csrInstruction csr (readIfZero uimm .clear) (zext uimm) rd (encode (.csrrci rd csr uimm)).bits s

end Sys2Proof.Machine
end

