-- ==== Sys2Proof/Machine/HartLoop.lean ====
section
/-! DEFINITION. One pass of the hart loop (R470): the wake, the event check, the fetch (R170), decoding, executing. -/

namespace Sys2Proof.Machine

/-! ## Instruction fetch -/

/-- `PhysFetch16(pa)`: instructions are fetched from RAM only; `va` is the address the fault reports (R117). Each
halfword is a memory event of its own (R103, R141). -/
def physFetch16 (pa : PhysAddr) (va : Word) (s : State) : Access Half :=
  if inRam s.cfg pa 2 then .ok ((readBytes (interleave s).mem pa.toNat 2).extractLsb' 0 16) (interleave s)
  else .raise .instructionAccessFault va s

/-- `Fetch16(va)`: translate with access type Fetch, then read the halfword (R11, R170). -/
def fetch16 (va : Word) (s : State) : Access Half :=
  (translate va .fetch s).andThen fun pa s => physFetch16 pa va s

/-- `FetchInstruction()`: each halfword is translated on its own; the second is at `pc + 2` modulo 2^32 (R170, R171). -/
def fetchInstruction (s : State) : Access RawInsn :=
  (fetch16 s.pc s).andThen fun lo s1 =>
    if cQuadrant lo = 3#2 then
      (fetch16 (s.pc + 2#32) s1).andThen fun hi s2 => .ok (.word (hi ++ lo)) s2
    else .ok (.half lo) s1

/-- Fetch, decode and execute one instruction, or trap (R470, R180). -/
def runInstruction (s : State) : Host.Outcome State Fault Refusal :=
  match fetchInstruction s with
  | .raise e t s1 => .next (raiseException e t s1)
  | .ok raw s1 =>
    match decodeRaw raw with
    | .ok i => exec i s1
    | .error _ => .next (raiseException .illegalInstruction raw.bits s1)

/-! ## The wake and the event check -/

/-- The event check is made at this step: the hart is woken, an event is posted, and it does not leave a WFI (R470). -/
def checksEvents (s : State) : Bool := !s.waitEvent && s.evInt && !s.parked

/-- Consume the wake, and fold the posted interrupts if the event check is made (R470, R464). -/
def wake (s : State) : State :=
  if checksEvents s then eventFold { s with waitEvent := true } else { s with waitEvent := true }

/-- The interrupt the event check takes, if any (R464). -/
def boundaryInterrupt (s : State) : Option Nat :=
  if checksEvents s then interruptScan false (wake s) else none

/-- The last line of `HartStep`: an event still posted is checked at the next step (R470). -/
def rearm (s : State) : State := if s.evInt then { s with waitEvent := false } else s

/-- The same on an outcome. -/
def rearmOutcome : Host.Outcome State Fault Refusal → Host.Outcome State Fault Refusal
  | .next s => .next (rearm s)
  | .fault f => .fault f
  | .refused r => .refused r

/-- `HartStep()` (R470). A parked hart that nothing has woken has no step: its turn leaves the state (R407,
log entry 17). -/
def hartStep (s : State) : Host.Outcome State Fault Refusal :=
  if s.parked && s.waitEvent then .next s
  else
    match boundaryInterrupt s with
    | some i => .next (takeInterrupt i s.pc (wake s))
    | none => rearmOutcome (runInstruction { wake s with parked := false })

/-! ## Placing an instruction where the next fetch reads it -/

/-- The halfword `h` stored at the physical address that a fetch of `va` reads, where that is RAM. -/
def placeHalf (va : Word) (h : Half) (s : State) : State :=
  match translate va .fetch s with
  | .ok pa _ => if inRam s.cfg pa 2 then { s with mem := writeBytes pa.toNat (zext h) s.mem 2 } else s
  | .raise _ _ _ => s

/-- `w` stored at `pc` and `pc + 2`, and the hart ready to fetch it as its next action (log entry 14). -/
def placeInstruction (nbits w : Nat) (s : State) : State :=
  let v := w % 2 ^ nbits
  let s1 := { s with interleaved := [] }
  { placeHalf (s.pc + 2#32) (BitVec.ofNat 16 (v / 2 ^ 16)) (placeHalf s.pc (BitVec.ofNat 16 v) s1) with
    agenda := []
    parked := false
    evInt := false }

end Sys2Proof.Machine
end

