-- ==== Sys2Proof/Machine/Step.lean ====
section
/-! DEFINITION. One step of the machine: the turn of the hart, or of the agent the agenda names next. -/

namespace Sys2Proof.Machine

/-- One step. A configuration that breaks a constraint of R7, R58 or R80 is refused (I23). An empty agenda gives the turn to the hart
(R14, R471; log entry 5). -/
def step (s : State) : Host.Outcome State Fault Refusal :=
  if !machineLegal s then .refused .badConfiguration
  else
    match s.agenda with
    | [] => hartStep s
    | .hart :: rest => hartStep { s with agenda := rest }
    | .agent a :: rest => .next (agentAct { s with agenda := rest } a)

/-- `s` with the instruction whose `nbits` bits are `w` stored where the next step fetches (log entry 14). -/
def State.withFetchWord (s : State) (nbits w : Nat) : State := placeInstruction nbits w s

end Sys2Proof.Machine
end

