-- ==== Sys2Proof/Safety.lean ====
section
/-! DEFINITION. What the machine promises of every state: the invariant a step keeps, each part with the rule that
states it. A run is safe when every step of it answers a next state (R510, R514). -/

namespace Sys2Proof.Machine

/-- `w` has no bit outside `mask`. -/
def bitsWithin (mask w : Word) : Bool := w &&& ~~~mask == 0#32

/-- The hardwired bits of `status` are 0 and MPP holds 0, 1 or 3 (R40, R41). -/
def statusLegal (status : Word) : Bool := bitsWithin statusMask status && statusMPP status != 2#2

/-- Bit 0 is 0. -/
def isEven (w : Word) : Bool := !w.getLsbD 0

/-- The hardwired bits of every CSR are 0 (R40, R44, R51, R55, R56, R59). -/
def CsrFile.legal (c : CsrFile) : Bool :=
  statusLegal c.status && bitsWithin interruptMask c.ie && bitsWithin interruptMask c.ip
    && isEven c.epc.user && isEven c.epc.supervisor && isEven c.epc.machine
    && bitsWithin 0x0000B3FF#32 c.medeleg && bitsWithin 0x0000B1FF#32 c.sedeleg
    && bitsWithin 0x00000333#32 c.mideleg && bitsWithin 0x00000111#32 c.sideleg
    && bitsWithin 0x803FFFFF#32 c.satp

/-- Memory is in its canonical form and lists only bytes of RAM (R78). -/
def memLegal (p : Config.Params) (m : Memory) : Bool :=
  m.wf && m.all fun c => decide (p.ramBase ≤ c.1) && decide (c.1 < p.ramBase + p.ramSize)

/-- A listed entry stands at the index of its page and translates to a page of RAM (R70, R131). -/
def tlbEntryLegal (p : Config.Params) (e : Nat × TlbEntry) : Bool :=
  e.1 == tlbIndex p e.2.vpn && isRamPage p (0#2 ++ e.2.ppn ++ 0#12)

/-- The TLB is in its canonical form and every entry of it is legal. -/
def tlbLegal (p : Config.Params) (t : Tlb) : Bool := sparseSortedFrom 0 t && t.all (tlbEntryLegal p)

/-- A reservation is on an aligned word of RAM (R76, R320, R326). -/
def reservationLegal (p : Config.Params) (r : Option PhysAddr) : Bool :=
  match r with
  | none => true
  | some a => a.extractLsb' 0 2 == 0#2 && inRam p a 4

/-- Nothing posted is unobserved: `ev_int = 0` leaves no posted bit, and `wait_event = 1` leaves no event (R470). -/
def eventsLegal (s : State) : Bool :=
  bitsWithin interruptMask s.evIntMask && (s.evInt || s.evIntMask == 0#32) && (!s.waitEvent || !s.evInt)

/-- The invariant of the machine at every instruction boundary. -/
structure Inv (s : State) : Prop where
  /-- R7, R58, R80 -/
  machine : machineLegal s = true
  /-- R25 -/
  pcEven : isEven s.pc = true
  /-- R40 to R59 -/
  csrs : s.csr.legal = true
  /-- R78 -/
  memory : memLegal s.cfg s.mem = true
  /-- R70, R131 -/
  tlb : tlbLegal s.cfg s.tlb = true
  /-- R76 -/
  reservation : reservationLegal s.cfg s.rsv = true
  /-- R470 -/
  events : eventsLegal s = true
  /-- R453 -/
  evTrap : s.evTrap = false


/-- A safe run: `n` steps from `s` all answer a next state. -/
def SafeFor : Nat → State → Prop
  | 0, _ => True
  | n + 1, s => ∃ s', step s = .next s' ∧ SafeFor n s'

end Sys2Proof.Machine
end

