-- ==== Sys2Proof/Certificates/Slice0/Obligations.lean ====
section
/-! DEFINITION. What the provers are asked: each obligation says in the spec's own terms what an instruction or the
machine does. The namespace Spec holds the vocabulary: frames, trap entry, the opcode table, the interrupt conditions. -/

open Sys2Proof Sys2Proof.Machine

namespace Sys2Proof.Spec

/-! ## Frames -/

/-- What of this hart no other agent can change (R14), the registers, pc and the TLB apart: it is the same in `t`. -/
structure SameHart (s t : State) : Prop where
  priv : t.priv = s.priv
  csr : t.csr = s.csr
  cfg : t.cfg = s.cfg
  parked : t.parked = s.parked
  evTrap : t.evTrap = s.evTrap
  mmioLog : t.mmioLog = s.mmioLog
  agenda : t.agenda = s.agenda

/-- What other agents can change too, RAM and the reservation apart, and what they do inside instructions yet to come:
it is the same in `t`. -/
structure SameShared (s t : State) : Prop where
  time : t.time = s.time
  timecmp : t.timecmp = s.timecmp
  waitEvent : t.waitEvent = s.waitEvent
  evInt : t.evInt = s.evInt
  evIntMask : t.evIntMask = s.evIntMask
  devices : t.devices = s.devices
  interleaved : t.interleaved = s.interleaved

/-- Nothing differs but, perhaps, the integer registers, pc, memory, the TLB and the reservation. -/
structure SameControl (s t : State) : Prop where
  hart : SameHart s t
  shared : SameShared s t

/-- Every byte of memory reads as before. -/
def SameBytes (s t : State) : Prop := ∀ a, readByte t.mem a = readByte s.mem a

/-- Every byte of memory outside `[a, a + n)` reads as before. -/
def SameBytesOutside (a n : Nat) (s t : State) : Prop :=
  ∀ b, b < a ∨ a + n ≤ b → readByte t.mem b = readByte s.mem b

/-- Nothing differs but, perhaps, the integer registers and pc. -/
structure OnlyRegsAndPc (s t : State) : Prop where
  control : SameControl s t
  tlb : t.tlb = s.tlb
  rsv : t.rsv = s.rsv
  bytes : SameBytes s t

/-- Every integer register reads as before. -/
def SameRegs (s t : State) : Prop := ∀ r, readReg t r = readReg s r

/-- `x[rd] <- v` and no other register (R10, R21): x0 reads 0 whatever is written. -/
def Wrote (rd : Reg) (v : Word) (s t : State) : Prop :=
  ∀ r, readReg t r = if r = 0#5 then 0#32 else if r = rd then v else readReg s r

/-- `i` completes: `x[rd] <- v`, pc is `next`, nothing else differs. -/
def Computes (i : Instr) (rd : Reg) (v next : Word) (s : State) : Prop :=
  ∃ t, exec i s = .next t ∧ Wrote rd v s t ∧ t.pc = next ∧ OnlyRegsAndPc s t

/-- `i` completes: pc is `next`, nothing else differs. -/
def Goes (i : Instr) (next : Word) (s : State) : Prop :=
  ∃ t, exec i s = .next t ∧ SameRegs s t ∧ t.pc = next ∧ OnlyRegsAndPc s t

/-- An integer modulo 2^32. -/
def word (n : Int) : Word := BitVec.ofInt 32 n

/-- 1 if the condition holds, else 0. -/
def flag (p : Prop) [Decidable p] : Word := if p then 1#32 else 0#32

/-! ## Trap entry (R450, R452) -/

/-- `t` is `s` after `TakeTrap(p, c, tv, ev)`, field by field. -/
structure TrapEntry (p : Priv) (c tv ev : Word) (s t : State) : Prop where
  epc : ∀ q, t.csr.epc.get q = if q = p then ev &&& 0xFFFFFFFE#32 else s.csr.epc.get q
  cause : ∀ q, t.csr.cause.get q = if q = p then c else s.csr.cause.get q
  tval : ∀ q, t.csr.tval.get q = if q = p then tv else s.csr.tval.get q
  /-- xIE is cleared and xPIE holds what it was -/
  xie : statusIE t.csr.status p = false
  xpie : statusPIE t.csr.status p = statusIE s.csr.status p
  /-- xPP holds the privilege before -/
  mpp : p = .machine → statusMPP t.csr.status = s.priv.code
  spp : p = .supervisor → statusSPP t.csr.status = s.priv.code.getLsbD 0
  /-- no other bit of status differs -/
  otherBits : ∀ j < 32, j ≠ ieBit p → j ≠ pieBit p → (p = .machine → j ≠ 11 ∧ j ≠ 12) → (p = .supervisor → j ≠ 8) →
    t.csr.status.getLsbD j = s.csr.status.getLsbD j
  /-- no other CSR differs -/
  otherCsrs : t.csr = { s.csr with epc := t.csr.epc, cause := t.csr.cause, tval := t.csr.tval, status := t.csr.status }
  priv : t.priv = p
  rsv : t.rsv = none
  evTrap : t.evTrap = false
  /-- the TLB is flushed if the translation context differs -/
  tlb : t.tlb = if translationContext t = translationContext s then s.tlb else []
  /-- the handler's address: the base, and for an interrupt in vectored mode four times its number more -/
  pc : t.pc = (s.csr.tvec.get p &&& 0xFFFFFFFC#32) +
    if (s.csr.tvec.get p).getLsbD 0 = true ∧ c.getLsbD 31 = true then BitVec.ofNat 32 (4 * (c.toNat % 2 ^ 31)) else 0#32
  regs : SameRegs s t
  bytes : SameBytes s t
  rest : t.time = s.time ∧ t.timecmp = s.timecmp ∧ t.waitEvent = s.waitEvent ∧ t.evInt = s.evInt ∧
    t.evIntMask = s.evIntMask ∧ t.parked = s.parked ∧ t.cfg = s.cfg ∧ t.devices = s.devices ∧
    t.mmioLog = s.mmioLog ∧ t.agenda = s.agenda ∧ t.interleaved = s.interleaved

/-- The target of exception `c` (R451), in the words of its consequences. -/
def exceptionLevel (c : Nat) (s : State) : Priv :=
  match s.priv with
  | .machine => .machine
  | .supervisor => if s.csr.medeleg.getLsbD c then .supervisor else .machine
  | .user =>
    if s.csr.medeleg.getLsbD c then if s.csr.sedeleg.getLsbD c then .user else .supervisor else .machine

/-- An instruction at `s` ends in the exception `c`, raised in the state `s1` (which keeps what was done before). -/
def Traps (o : Host.Outcome State Fault Refusal) (c : Nat) (tval : Word) (s s1 : State) : Prop :=
  ∃ t, o = .next t ∧ TrapEntry (exceptionLevel c s) (BitVec.ofNat 32 c) tval s.pc s1 t

/-- The last line of `HartStep` (R470): an event still posted makes the next step check it. -/
def rearmed (s : State) : State := if s.evInt then { s with waitEvent := false } else s

/-! ## Memory, in bytes -/

/-- The little-endian halfword at `a` (R100). -/
def half (m : Memory) (a : Nat) : Half := readByte m (a + 1) ++ readByte m a

/-- The little-endian word at `a` (R100). -/
def word4 (m : Memory) (a : Nat) : Word :=
  readByte m (a + 3) ++ readByte m (a + 2) ++ readByte m (a + 1) ++ readByte m a

/-- Byte `k` of a word, the least significant first. -/
def byteOf (v : Word) (k : Nat) : Byte := v.extractLsb' (8 * k) 8

/-- `[pa, pa + n)` and the reserved word share a byte (R323). -/
def Overlaps (rsv : Option PhysAddr) (pa : PhysAddr) (n : Nat) : Prop :=
  ∃ a, rsv = some a ∧ pa.toNat < a.toNat + 4 ∧ a.toNat < pa.toNat + n

/-- The reservation after a store of `n` bytes at `pa` (R323). -/
def StoreKeepsReservation (pa : PhysAddr) (n : Nat) (s t : State) : Prop :=
  (Overlaps s.rsv pa n → t.rsv = none) ∧ (¬ Overlaps s.rsv pa n → t.rsv = s.rsv)

/-- A load of `n` bytes at `va`, aligned, whose translation gives an address in RAM. With `s2` the state in which its
memory event takes place (the translated state, after what other agents do before the event): `x[rd]` is `value` of the
bytes there, and nothing else differs from `s2` but pc. -/
def LoadsFromRam (i : Instr) (rd : Reg) (va : Word) (n : Nat) (len : Word) (value : Memory → Nat → Word)
    (s : State) : Prop :=
  ∀ pa s1, va.toNat % n = 0 → translate va .load s = .ok pa s1 → inRam s.cfg pa n = true →
    let s2 := interleave s1
    ∃ t, exec i s = .next t ∧ Wrote rd (value s2.mem pa.toNat) s t ∧ t.pc = s.pc + len ∧ SameHart s t ∧
      SameShared s2 t ∧ t.tlb = s1.tlb ∧ t.rsv = s2.rsv ∧ SameBytes s2 t

/-- A store of the low `n` bytes of `v` at `va`, aligned, whose translation gives the address `pa` in RAM. With `s2` the
state in which its memory event takes place: the bytes at `pa` are those of `v`, and nothing else differs from `s2` but
those bytes, the reservation and pc. -/
def StoresToRam (i : Instr) (va : Word) (n : Nat) (v len : Word) (s : State) : Prop :=
  ∀ pa s1, s.mem.wf = true → va.toNat % n = 0 → translate va .store s = .ok pa s1 → inRam s.cfg pa n = true →
    let s2 := interleave s1
    ∃ t, exec i s = .next t ∧ (∀ k < n, readByte t.mem (pa.toNat + k) = byteOf v k) ∧
      SameBytesOutside pa.toNat n s2 t ∧ StoreKeepsReservation pa n s2 t ∧ SameRegs s t ∧ t.pc = s.pc + len ∧
      SameHart s t ∧ SameShared s2 t ∧ t.tlb = s1.tlb

/-- An AMO on an aligned word of RAM. With `s2` the state in which its one memory event takes place: `x[rd]` is the old
word, the word becomes `f old x[rs2]` (R328, R142). -/
def AmoOnRam (i : Instr) (f : Word → Word → Word) (rd rs2 rs1 : Reg) (s : State) : Prop :=
  ∀ pa s1, s.mem.wf = true → (readReg s rs1).toNat % 4 = 0 → translate (readReg s rs1) .store s = .ok pa s1 →
    inRam s.cfg pa 4 = true →
    let s2 := interleave s1
    ∃ t, exec i s = .next t ∧ Wrote rd (word4 s2.mem pa.toNat) s t ∧
      word4 t.mem pa.toNat = f (word4 s2.mem pa.toNat) (readReg s rs2) ∧ SameBytesOutside pa.toNat 4 s2 t ∧
      StoreKeepsReservation pa 4 s2 t ∧ t.pc = s.pc + 4#32 ∧ SameHart s t ∧ SameShared s2 t ∧ t.tlb = s1.tlb

/-- Access type, virtual address and size of a data access; `none` for an instruction that makes none. -/
def memForm (i : Instr) (s : State) : Option (AccessType × Word × Nat) :=
  match i with
  | .lb _ rs1 imm | .lbu _ rs1 imm => some (.load, readReg s rs1 + imm.signExtend 32, 1)
  | .lh _ rs1 imm | .lhu _ rs1 imm => some (.load, readReg s rs1 + imm.signExtend 32, 2)
  | .lw _ rs1 imm => some (.load, readReg s rs1 + imm.signExtend 32, 4)
  | .sb _ rs1 imm => some (.store, readReg s rs1 + imm.signExtend 32, 1)
  | .sh _ rs1 imm => some (.store, readReg s rs1 + imm.signExtend 32, 2)
  | .sw _ rs1 imm => some (.store, readReg s rs1 + imm.signExtend 32, 4)
  | .cLw _ rs1 uimm => some (.load, readReg s rs1 + uimm.zeroExtend 32, 4)
  | .cLwsp _ uimm => some (.load, readReg s 2#5 + uimm.zeroExtend 32, 4)
  | .cSw _ rs1 uimm => some (.store, readReg s rs1 + uimm.zeroExtend 32, 4)
  | .cSwsp _ uimm => some (.store, readReg s 2#5 + uimm.zeroExtend 32, 4)
  | .lrW _ _ _ rs1 => some (.load, readReg s rs1, 4)
  | .scW _ _ _ _ rs1 | .amoswapW _ _ _ _ rs1 | .amoaddW _ _ _ _ rs1 | .amoxorW _ _ _ _ rs1
  | .amoandW _ _ _ _ rs1 | .amoorW _ _ _ _ rs1 | .amominW _ _ _ _ rs1 | .amomaxW _ _ _ _ rs1
  | .amominuW _ _ _ _ rs1 | .amomaxuW _ _ _ _ rs1 => some (.store, readReg s rs1, 4)
  | _ => none

/-- Destination, virtual address, width, the value loaded from the data of the access, and length of a load (R271 to
R275, R353, R372); `none` for every other instruction. -/
def loadForm (i : Instr) (s : State) : Option (Reg × Word × Width × (Word → Word) × Word) :=
  match i with
  | .lb rd rs1 imm => some (rd, readReg s rs1 + imm.signExtend 32, .byte, fun d => (d.extractLsb' 0 8).signExtend 32, 4#32)
  | .lbu rd rs1 imm => some (rd, readReg s rs1 + imm.signExtend 32, .byte, fun d => (d.extractLsb' 0 8).zeroExtend 32, 4#32)
  | .lh rd rs1 imm => some (rd, readReg s rs1 + imm.signExtend 32, .half, fun d => (d.extractLsb' 0 16).signExtend 32, 4#32)
  | .lhu rd rs1 imm => some (rd, readReg s rs1 + imm.signExtend 32, .half, fun d => (d.extractLsb' 0 16).zeroExtend 32, 4#32)
  | .lw rd rs1 imm => some (rd, readReg s rs1 + imm.signExtend 32, .word, fun d => d, 4#32)
  | .cLw rd rs1 uimm => some (rd, readReg s rs1 + uimm.zeroExtend 32, .word, fun d => d, 2#32)
  | .cLwsp rd uimm => some (rd, readReg s 2#5 + uimm.zeroExtend 32, .word, fun d => d, 2#32)
  | _ => none

/-- Virtual address, width, the data written and length of a store (R276 to R278, R354, R378); `none` for every other
instruction. -/
def storeForm (i : Instr) (s : State) : Option (Word × Width × Word × Word) :=
  match i with
  | .sb rs2 rs1 imm => some (readReg s rs1 + imm.signExtend 32, .byte, ((readReg s rs2).extractLsb' 0 8).zeroExtend 32, 4#32)
  | .sh rs2 rs1 imm => some (readReg s rs1 + imm.signExtend 32, .half, ((readReg s rs2).extractLsb' 0 16).zeroExtend 32, 4#32)
  | .sw rs2 rs1 imm => some (readReg s rs1 + imm.signExtend 32, .word, readReg s rs2, 4#32)
  | .cSw rs2 rs1 uimm => some (readReg s rs1 + uimm.zeroExtend 32, .word, readReg s rs2, 2#32)
  | .cSwsp rs2 uimm => some (readReg s 2#5 + uimm.zeroExtend 32, .word, readReg s rs2, 2#32)
  | _ => none

/-- The instructions of the A extension: they reach RAM only (R325). -/
def isAtomic : Instr → Bool
  | .lrW .. | .scW .. | .amoswapW .. | .amoaddW .. | .amoxorW .. | .amoandW .. | .amoorW .. | .amominW ..
  | .amomaxW .. | .amominuW .. | .amomaxuW .. => true
  | _ => false

/-- The instructions that store: stores, SC.W and the AMOs. -/
def mayStore : Instr → Bool
  | .sb .. | .sh .. | .sw .. | .cSw .. | .cSwsp .. | .scW .. | .amoswapW .. | .amoaddW .. | .amoxorW ..
  | .amoandW .. | .amoorW .. | .amominW .. | .amomaxW .. | .amominuW .. | .amomaxuW .. => true
  | _ => false

/-- The trap returns. -/
def isTrapReturn : Instr → Bool
  | .uret | .sret | .mret => true
  | _ => false

/-! ## Interrupts (R461 to R465) -/

/-- The interrupt numbers in the order of the scan (R461). -/
def scanOrder : List Nat := [11, 3, 7, 9, 1, 5, 8, 0, 4]

/-- The target of interrupt `i` (R463). -/
def interruptLevel (i : Nat) (s : State) : Priv :=
  if s.csr.mideleg.getLsbD i then if s.csr.sideleg.getLsbD i then .user else .supervisor else .machine

/-- Interrupt `i` fires (R465). -/
def Fires (wfi : Bool) (i : Nat) (s : State) : Prop :=
  s.csr.ip.getLsbD i = true ∧ s.csr.ie.getLsbD i = true ∧
    (s.priv.code.toNat < (interruptLevel i s).code.toNat ∨
      (interruptLevel i s = s.priv ∧ (wfi = true ∨ statusIE s.csr.status s.priv = true)))

/-- `i` is the first interrupt of the scan that fires (R461, R464). -/
def FirstFiring (wfi : Bool) (i : Nat) (s : State) : Prop :=
  ∃ before after, scanOrder = before ++ i :: after ∧ Fires wfi i s ∧ ∀ j ∈ before, ¬ Fires wfi j s

/-- No interrupt fires. -/
def NoneFires (wfi : Bool) (s : State) : Prop := ∀ j ∈ scanOrder, ¬ Fires wfi j s

/-- `s` after `EventFold()` (R464): posted bits enter ip, the flags are cleared, bit 7 is dropped unless the timer is
pending. -/
def folded (s : State) : State :=
  { s with
    csr :=
      { s.csr with
        ip :=
          if s.timecmp.toNat ≤ s.time.toNat then s.csr.ip ||| s.evIntMask
          else (s.csr.ip ||| s.evIntMask) &&& ~~~0x80#32 }
    evIntMask := 0#32
    evInt := false }

/-- The cause of interrupt `i`. -/
def interruptCause (i : Nat) : Word := BitVec.ofNat 32 (2 ^ 31 + i)

/-! ## CSRs -/

/-- CSR address, operation, operand and destination of a CSR instruction (R411). -/
def csrForm (i : Instr) (s : State) : Option (CsrAddr × CsrOp × Word × Reg) :=
  match i with
  | .csrrw rd a rs1 => some (a, .write, readReg s rs1, rd)
  | .csrrs rd a rs1 => some (a, if rs1 = 0#5 then .read else .set, readReg s rs1, rd)
  | .csrrc rd a rs1 => some (a, if rs1 = 0#5 then .read else .clear, readReg s rs1, rd)
  | .csrrwi rd a uimm => some (a, .write, uimm.zeroExtend 32, rd)
  | .csrrsi rd a uimm => some (a, if uimm = 0#5 then .read else .set, uimm.zeroExtend 32, rd)
  | .csrrci rd a uimm => some (a, if uimm = 0#5 then .read else .clear, uimm.zeroExtend 32, rd)
  | _ => none

/-- What the access check of R33 lets through. -/
def CsrAllowed (a : CsrAddr) (op : CsrOp) (s : State) : Prop :=
  (a.extractLsb' 8 2).toNat ≤ s.priv.code.toNat ∧ csrFind a ≠ none ∧ ¬ (a.extractLsb' 10 2 = 3#2 ∧ op ≠ .read)

/-- The CSRs whose write self-signals (R37 S1 and S2, R466): mstatus, sstatus, ustatus; mie, sie, uie; mip, sip, uip;
mideleg, sideleg. -/
def selfSignalling : List CsrAddr :=
  [0x300#12, 0x100#12, 0x000#12, 0x304#12, 0x104#12, 0x004#12, 0x344#12, 0x144#12, 0x044#12, 0x303#12, 0x103#12]

/-- What each implemented CSR reads as in M mode (R37 with R40 to R61). -/
def csrReads (c : CsrFile) : List (CsrAddr × Word) :=
  [ (0x000#12, c.status &&& 0x00000011#32), (0x004#12, c.ie &&& 0x00000111#32), (0x005#12, c.tvec.user),
    (0x040#12, c.scratch.user), (0x041#12, c.epc.user &&& 0xFFFFFFFE#32), (0x042#12, c.cause.user),
    (0x043#12, c.tval.user), (0x044#12, c.ip &&& 0x00000111#32), (0x100#12, c.status &&& 0x000C0133#32),
    (0x102#12, c.sedeleg &&& 0x0000B1FF#32), (0x103#12, c.sideleg &&& 0x00000111#32),
    (0x104#12, c.ie &&& 0x00000333#32), (0x105#12, c.tvec.supervisor), (0x106#12, c.scounteren),
    (0x140#12, c.scratch.supervisor), (0x141#12, c.epc.supervisor &&& 0xFFFFFFFE#32), (0x142#12, c.cause.supervisor),
    (0x143#12, c.tval.supervisor), (0x144#12, c.ip &&& 0x00000333#32), (0x180#12, c.satp &&& 0x803FFFFF#32) ] ++
  [ (0x300#12, c.status &&& 0x000E19BB#32), (0x301#12, 0x40143105#32), (0x302#12, c.medeleg &&& 0x0000B3FF#32),
    (0x303#12, c.mideleg &&& 0x00000333#32), (0x304#12, c.ie &&& 0x00000BBB#32), (0x305#12, c.tvec.machine),
    (0x306#12, c.mcounteren), (0x340#12, c.scratch.machine), (0x341#12, c.epc.machine &&& 0xFFFFFFFE#32),
    (0x342#12, c.cause.machine), (0x343#12, c.tval.machine), (0x344#12, c.ip &&& 0x00000BBB#32),
    (0xF11#12, 0#32), (0xF12#12, 0#32), (0xF13#12, 0#32), (0xF14#12, c.hartid) ]

/-- `v` in the bits of `mask`, `old` elsewhere. -/
def merge (mask old v : Word) : Word := (old &&& ~~~mask) ||| (v &&& mask)

/-- The CSR file after a write of `v` in M mode to each writable CSR whose value is not `status` (R37). -/
def csrWrites (c : CsrFile) (v : Word) : List (CsrAddr × CsrFile) :=
  [ (0x004#12, { c with ie := merge 0x111#32 c.ie v }), (0x005#12, { c with tvec := { c.tvec with user := v } }),
    (0x040#12, { c with scratch := { c.scratch with user := v } }),
    (0x041#12, { c with epc := { c.epc with user := merge 0xFFFFFFFE#32 c.epc.user v } }),
    (0x042#12, { c with cause := { c.cause with user := v } }), (0x043#12, { c with tval := { c.tval with user := v } }),
    (0x044#12, { c with ip := merge 0x111#32 c.ip v }), (0x102#12, { c with sedeleg := merge 0xB1FF#32 c.sedeleg v }),
    (0x103#12, { c with sideleg := merge 0x111#32 c.sideleg v }), (0x104#12, { c with ie := merge 0x333#32 c.ie v }),
    (0x105#12, { c with tvec := { c.tvec with supervisor := v } }), (0x106#12, { c with scounteren := v }),
    (0x140#12, { c with scratch := { c.scratch with supervisor := v } }),
    (0x141#12, { c with epc := { c.epc with supervisor := merge 0xFFFFFFFE#32 c.epc.supervisor v } }),
    (0x142#12, { c with cause := { c.cause with supervisor := v } }),
    (0x143#12, { c with tval := { c.tval with supervisor := v } }), (0x144#12, { c with ip := merge 0x333#32 c.ip v }),
    (0x180#12, { c with satp := merge 0x803FFFFF#32 c.satp v }) ] ++
  [ (0x301#12, c), (0x302#12, { c with medeleg := merge 0xB3FF#32 c.medeleg v }),
    (0x303#12, { c with mideleg := merge 0x333#32 c.mideleg v }), (0x304#12, { c with ie := merge 0xBBB#32 c.ie v }),
    (0x305#12, { c with tvec := { c.tvec with machine := v } }), (0x306#12, { c with mcounteren := v }),
    (0x340#12, { c with scratch := { c.scratch with machine := v } }),
    (0x341#12, { c with epc := { c.epc with machine := merge 0xFFFFFFFE#32 c.epc.machine v } }),
    (0x342#12, { c with cause := { c.cause with machine := v } }),
    (0x343#12, { c with tval := { c.tval with machine := v } }), (0x344#12, { c with ip := merge 0xBBB#32 c.ip v }) ]

/-! ## Translation (R120 to R131) -/

/-- A translation of type `ty` that walks: translation is on, below M, and the TLB has no entry for it. -/
def Walks (va : Word) (ty : AccessType) (s : State) : Prop :=
  s.csr.satp.getLsbD 31 = true ∧ effPriv ty s ≠ .machine ∧ tlbLookup va ty s = none

/-- Address of the level-1 entry of `va` (R123). -/
def entry1 (va : Word) (s : State) : PhysAddr :=
  BitVec.ofNat 34 ((s.csr.satp.extractLsb' 0 22).toNat * 4096 + (va.extractLsb' 22 10).toNat * 4)

/-- Address of the level-0 entry of `va` under the pointer `pte1` (R123). -/
def entry0 (pte1 va : Word) : PhysAddr :=
  BitVec.ofNat 34 ((pte1.extractLsb' 10 22).toNat * 4096 + (va.extractLsb' 12 10).toNat * 4)

/-- Step 2 of the walk: V = 0, or W without R (R123). -/
def Invalid (pte : Word) : Prop := pte.getLsbD 0 = false ∨ (pte.getLsbD 2 = true ∧ pte.getLsbD 1 = false)

/-- A leaf has R or X (R122). -/
def Leaf (pte : Word) : Prop := pte.getLsbD 1 = true ∨ pte.getLsbD 3 = true

/-- `Permitted(pte, t, eff)` at a level below M (R126). -/
def Allowed (pte : Word) (ty : AccessType) (s : State) : Prop :=
  (effPriv ty s = .user → pte.getLsbD 4 = true) ∧
  (effPriv ty s = .supervisor → pte.getLsbD 4 = true → ty ≠ .fetch ∧ s.csr.status.getLsbD 18 = true) ∧
  (ty = .fetch → pte.getLsbD 3 = true) ∧
  (ty = .load → pte.getLsbD 1 = true ∨ (s.csr.status.getLsbD 19 = true ∧ pte.getLsbD 3 = true)) ∧
  (ty = .store → pte.getLsbD 2 = true)

/-- A bit the access needs is missing in the leaf: A, or D for a store (R128). -/
def needsUpdate (pte : Word) (ty : AccessType) : Bool :=
  !pte.getLsbD 6 || (decide (ty = .store) && !pte.getLsbD 7)

/-- After a walk whose leaf `pte` was read at `a` in the state `s` and that gave `pa`. If a needed bit is missing, the
word at `a` as it is at the update's own memory event gets A (and D for a store), and no other bit of memory differs from
that event; otherwise no byte differs (R128). The TLB holds the translation if the page is RAM (R131); nothing else
differs. -/
def Walked (va : Word) (ty : AccessType) (a : PhysAddr) (pte : Word) (pa : PhysAddr) (s t : State) : Prop :=
  let s' := if needsUpdate pte ty then interleave s else s
  (∀ b, readByte t.mem b =
    if b = a.toNat ∧ needsUpdate pte ty = true then readByte s'.mem b ||| (if ty = .store then 0xC0#8 else 0x40#8)
    else readByte s'.mem b) ∧
  t.tlb = (if isRamPage s.cfg pa then
      sparseSet ((va.extractLsb' 12 20).toNat &&& (s.cfg.tlbN - 1))
        { vpn := va.extractLsb' 12 20, perm := ⟨decide (ty = .fetch), decide (ty = .load), decide (ty = .store)⟩,
          ppn := pa.extractLsb' 12 20 } s.tlb
    else s.tlb) ∧
  SameHart s t ∧ SameShared s' t ∧ SameRegs s t ∧ t.pc = s.pc ∧ t.rsv = s'.rsv

/-- The page fault of an access type: 12, 13 or 15 (R123, R440). -/
def pageFaultOf : AccessType → Exception
  | .fetch => .instructionPageFault
  | .load => .loadPageFault
  | .store => .storePageFault

/-- The access fault of an access type: 1, 5 or 7 (R124, R440). -/
def accessFaultOf : AccessType → Exception
  | .fetch => .instructionAccessFault
  | .load => .loadAccessFault
  | .store => .storeAccessFault

/-- Neither RAM nor an MMIO region holds the access (R110). -/
def Unmapped (pa : PhysAddr) (n : Nat) (s : State) : Prop :=
  2 ^ 32 ≤ pa.toNat ∨ (inRam s.cfg pa n = false ∧ mmioLookup s.cfg pa = none)

/-! ## Encodings -/

/-- The bytes of an instruction, lowest address first (R100, R171). -/
def rawBytes : RawInsn → List Byte
  | .half h => [h.extractLsb' 0 8, h.extractLsb' 8 8]
  | .word w => [w.extractLsb' 0 8, w.extractLsb' 8 8, w.extractLsb' 16 8, w.extractLsb' 24 8]

/-- `FetchInstruction()` at `s` succeeds (R170): `bytes` are the bytes of the instruction and `t` is the state of its last
memory event. Each halfword is translated on its own and read from RAM at its own event (R103, R117, R120, R141, D8); the
second, at `pc + 2` modulo 2^32, is fetched exactly if the low bits of the first are 11 (R171). -/
def Fetches (s : State) (bytes : List Byte) (t : State) : Prop :=
  ∃ pa s1, translate s.pc .fetch s = .ok pa s1 ∧ inRam s.cfg pa 2 = true ∧
    let s2 := interleave s1
    let first := [readByte s2.mem pa.toNat, readByte s2.mem (pa.toNat + 1)]
    ((half s2.mem pa.toNat).extractLsb' 0 2 ≠ 3#2 ∧ bytes = first ∧ t = s2) ∨
      ((half s2.mem pa.toNat).extractLsb' 0 2 = 3#2 ∧
        ∃ qa s3, translate (s.pc + 2#32) .fetch s2 = .ok qa s3 ∧ inRam s.cfg qa 2 = true ∧ t = interleave s3 ∧
          bytes = first ++ [readByte t.mem qa.toNat, readByte t.mem (qa.toNat + 1)])

/-- The illegal halfwords of R379, row by row; the first row includes C.ILLEGAL. -/
def IllegalHalf (h : Half) : Prop :=
  let q := h.extractLsb' 0 2
  let f := h.extractLsb' 13 3
  let b12 := h.extractLsb' 12 1
  (q = 0#2 ∧ f = 0#3 ∧ h.extractLsb' 5 8 = 0#8) ∨
  (q = 0#2 ∧ (f = 1#3 ∨ f = 3#3 ∨ f = 5#3 ∨ f = 7#3)) ∨
  (q = 0#2 ∧ f = 4#3) ∨
  (q = 1#2 ∧ f = 3#3 ∧ b12 = 0#1 ∧ h.extractLsb' 2 5 = 0#5) ∨
  (q = 1#2 ∧ f = 4#3 ∧ (h.extractLsb' 10 2 = 0#2 ∨ h.extractLsb' 10 2 = 1#2) ∧ b12 = 1#1) ∨
  (q = 1#2 ∧ f = 4#3 ∧ h.extractLsb' 10 2 = 3#2 ∧ b12 = 1#1) ∨
  (q = 2#2 ∧ f = 0#3 ∧ b12 = 1#1) ∨
  (q = 2#2 ∧ (f = 1#3 ∨ f = 3#3 ∨ f = 5#3 ∨ f = 7#3)) ∨
  (q = 2#2 ∧ f = 2#3 ∧ h.extractLsb' 7 5 = 0#5) ∨
  (q = 2#2 ∧ f = 4#3 ∧ b12 = 0#1 ∧ h.extractLsb' 7 5 = 0#5 ∧ h.extractLsb' 2 5 = 0#5)

/-- Rows of the opcode table for 32-bit instructions: LUI to SW. -/
def wordRows1 (w : Word) : List (Word × Word × Instr) :=
  let rd : Reg := w.extractLsb' 7 5
  let rs1 : Reg := w.extractLsb' 15 5
  let rs2 : Reg := w.extractLsb' 20 5
  let immI : BitVec 12 := w.extractLsb' 20 12
  let immS : BitVec 12 := w.extractLsb' 25 7 ++ w.extractLsb' 7 5
  let immB : BitVec 13 := w.extractLsb' 31 1 ++ w.extractLsb' 7 1 ++ w.extractLsb' 25 6 ++ w.extractLsb' 8 4 ++ 0#1
  let immU : BitVec 20 := w.extractLsb' 12 20
  let immJ : BitVec 21 := w.extractLsb' 31 1 ++ w.extractLsb' 12 8 ++ w.extractLsb' 20 1
    ++ w.extractLsb' 21 10 ++ 0#1
  [ (0x00000037#32, 0x0000007f#32, .lui rd immU), (0x00000017#32, 0x0000007f#32, .auipc rd immU),
    (0x0000006f#32, 0x0000007f#32, .jal rd immJ), (0x00000067#32, 0x0000707f#32, .jalr rd rs1 immI),
    (0x00000063#32, 0x0000707f#32, .beq rs1 rs2 immB), (0x00001063#32, 0x0000707f#32, .bne rs1 rs2 immB),
    (0x00004063#32, 0x0000707f#32, .blt rs1 rs2 immB), (0x00005063#32, 0x0000707f#32, .bge rs1 rs2 immB),
    (0x00006063#32, 0x0000707f#32, .bltu rs1 rs2 immB), (0x00007063#32, 0x0000707f#32, .bgeu rs1 rs2 immB),
    (0x00000003#32, 0x0000707f#32, .lb rd rs1 immI), (0x00001003#32, 0x0000707f#32, .lh rd rs1 immI),
    (0x00002003#32, 0x0000707f#32, .lw rd rs1 immI), (0x00004003#32, 0x0000707f#32, .lbu rd rs1 immI),
    (0x00005003#32, 0x0000707f#32, .lhu rd rs1 immI), (0x00000023#32, 0x0000707f#32, .sb rs2 rs1 immS),
    (0x00001023#32, 0x0000707f#32, .sh rs2 rs1 immS), (0x00002023#32, 0x0000707f#32, .sw rs2 rs1 immS) ]

/-- Rows of the opcode table for 32-bit instructions: ADDI to OR. -/
def wordRows2 (w : Word) : List (Word × Word × Instr) :=
  let rd : Reg := w.extractLsb' 7 5
  let rs1 : Reg := w.extractLsb' 15 5
  let rs2 : Reg := w.extractLsb' 20 5
  let immI : BitVec 12 := w.extractLsb' 20 12
  [ (0x00000013#32, 0x0000707f#32, .addi rd rs1 immI), (0x00002013#32, 0x0000707f#32, .slti rd rs1 immI),
    (0x00003013#32, 0x0000707f#32, .sltiu rd rs1 immI), (0x00004013#32, 0x0000707f#32, .xori rd rs1 immI),
    (0x00006013#32, 0x0000707f#32, .ori rd rs1 immI), (0x00007013#32, 0x0000707f#32, .andi rd rs1 immI),
    (0x00001013#32, 0xfe00707f#32, .slli rd rs1 rs2), (0x00005013#32, 0xfe00707f#32, .srli rd rs1 rs2),
    (0x40005013#32, 0xfe00707f#32, .srai rd rs1 rs2), (0x00000033#32, 0xfe00707f#32, .add rd rs1 rs2),
    (0x40000033#32, 0xfe00707f#32, .sub rd rs1 rs2), (0x00001033#32, 0xfe00707f#32, .sll rd rs1 rs2),
    (0x00002033#32, 0xfe00707f#32, .slt rd rs1 rs2), (0x00003033#32, 0xfe00707f#32, .sltu rd rs1 rs2),
    (0x00004033#32, 0xfe00707f#32, .xor rd rs1 rs2), (0x00005033#32, 0xfe00707f#32, .srl rd rs1 rs2),
    (0x40005033#32, 0xfe00707f#32, .sra rd rs1 rs2), (0x00006033#32, 0xfe00707f#32, .or rd rs1 rs2) ]

/-- Rows of the opcode table for 32-bit instructions: AND to MULH. -/
def wordRows3 (w : Word) : List (Word × Word × Instr) :=
  let rd : Reg := w.extractLsb' 7 5
  let rs1 : Reg := w.extractLsb' 15 5
  let rs2 : Reg := w.extractLsb' 20 5
  let immI : BitVec 12 := w.extractLsb' 20 12
  [ (0x00007033#32, 0xfe00707f#32, .and rd rs1 rs2),
    (0x0000000f#32, 0x0000707f#32, .fence (w.extractLsb' 28 4) (w.extractLsb' 24 4) (w.extractLsb' 20 4) rs1 rd),
    (0x0000100f#32, 0x0000707f#32, .fenceI immI rs1 rd), (0x00000073#32, 0xffffffff#32, .ecall),
    (0x00100073#32, 0xffffffff#32, .ebreak), (0x00200073#32, 0xffffffff#32, .uret),
    (0x10200073#32, 0xffffffff#32, .sret), (0x30200073#32, 0xffffffff#32, .mret),
    (0x10500073#32, 0xffffffff#32, .wfi), (0x12000073#32, 0xfe007fff#32, .sfenceVma rs1 rs2),
    (0x00001073#32, 0x0000707f#32, .csrrw rd immI rs1), (0x00002073#32, 0x0000707f#32, .csrrs rd immI rs1),
    (0x00003073#32, 0x0000707f#32, .csrrc rd immI rs1), (0x00005073#32, 0x0000707f#32, .csrrwi rd immI rs1),
    (0x00006073#32, 0x0000707f#32, .csrrsi rd immI rs1), (0x00007073#32, 0x0000707f#32, .csrrci rd immI rs1),
    (0x02000033#32, 0xfe00707f#32, .mul rd rs1 rs2), (0x02001033#32, 0xfe00707f#32, .mulh rd rs1 rs2) ]

/-- Rows of the opcode table for 32-bit instructions: MULHSU to AMOMAXU.W. -/
def wordRows4 (w : Word) : List (Word × Word × Instr) :=
  let rd : Reg := w.extractLsb' 7 5
  let rs1 : Reg := w.extractLsb' 15 5
  let rs2 : Reg := w.extractLsb' 20 5
  [ (0x02002033#32, 0xfe00707f#32, .mulhsu rd rs1 rs2), (0x02003033#32, 0xfe00707f#32, .mulhu rd rs1 rs2),
    (0x02004033#32, 0xfe00707f#32, .div rd rs1 rs2), (0x02005033#32, 0xfe00707f#32, .divu rd rs1 rs2),
    (0x02006033#32, 0xfe00707f#32, .rem rd rs1 rs2), (0x02007033#32, 0xfe00707f#32, .remu rd rs1 rs2),
    (0x1000202f#32, 0xf9f0707f#32, .lrW (w.getLsbD 26) (w.getLsbD 25) rd rs1),
    (0x1800202f#32, 0xf800707f#32, .scW (w.getLsbD 26) (w.getLsbD 25) rd rs2 rs1),
    (0x0800202f#32, 0xf800707f#32, .amoswapW (w.getLsbD 26) (w.getLsbD 25) rd rs2 rs1),
    (0x0000202f#32, 0xf800707f#32, .amoaddW (w.getLsbD 26) (w.getLsbD 25) rd rs2 rs1),
    (0x2000202f#32, 0xf800707f#32, .amoxorW (w.getLsbD 26) (w.getLsbD 25) rd rs2 rs1),
    (0x6000202f#32, 0xf800707f#32, .amoandW (w.getLsbD 26) (w.getLsbD 25) rd rs2 rs1),
    (0x4000202f#32, 0xf800707f#32, .amoorW (w.getLsbD 26) (w.getLsbD 25) rd rs2 rs1),
    (0x8000202f#32, 0xf800707f#32, .amominW (w.getLsbD 26) (w.getLsbD 25) rd rs2 rs1),
    (0xa000202f#32, 0xf800707f#32, .amomaxW (w.getLsbD 26) (w.getLsbD 25) rd rs2 rs1),
    (0xc000202f#32, 0xf800707f#32, .amominuW (w.getLsbD 26) (w.getLsbD 25) rd rs2 rs1),
    (0xe000202f#32, 0xf800707f#32, .amomaxuW (w.getLsbD 26) (w.getLsbD 25) rd rs2 rs1) ]

/-- The rows of the opcode table for 32-bit instructions: match, mask, and the instruction whose operands are the fields
of `w` where the formats of R173 and R174 place them (R185). -/
def wordRows (w : Word) : List (Word × Word × Instr) := wordRows1 w ++ wordRows2 w ++ wordRows3 w ++ wordRows4 w

/-- Rows of the opcode table for 16-bit instructions: C.ILLEGAL to C.SUB. -/
def halfRows1 (h : Half) : List (Half × Half × Bool × Instr) :=
  let rd : Reg := h.extractLsb' 7 5
  let rs2 : Reg := h.extractLsb' 2 5
  let low : Reg := 1#2 ++ h.extractLsb' 2 3
  let high : Reg := 1#2 ++ h.extractLsb' 7 3
  let imm6 : BitVec 6 := h.extractLsb' 12 1 ++ h.extractLsb' 2 5
  let immSpn : BitVec 10 := h.extractLsb' 7 4 ++ h.extractLsb' 11 2 ++ h.extractLsb' 5 1 ++ h.extractLsb' 6 1 ++ 0#2
  let immLs : BitVec 7 := h.extractLsb' 5 1 ++ h.extractLsb' 10 3 ++ h.extractLsb' 6 1 ++ 0#2
  let immJ : BitVec 12 := h.extractLsb' 12 1 ++ h.extractLsb' 8 1 ++ h.extractLsb' 9 2 ++ h.extractLsb' 6 1
    ++ h.extractLsb' 7 1 ++ h.extractLsb' 2 1 ++ h.extractLsb' 11 1 ++ h.extractLsb' 3 3 ++ 0#1
  let imm16sp : BitVec 10 := h.extractLsb' 12 1 ++ h.extractLsb' 3 2 ++ h.extractLsb' 5 1
    ++ h.extractLsb' 2 1 ++ h.extractLsb' 6 1 ++ 0#4
  [ (0x0000#16, 0xffff#16, true, .cIllegal), (0x0000#16, 0xe003#16, h.extractLsb' 5 8 != 0#8, .cAddi4spn low immSpn),
    (0x4000#16, 0xe003#16, true, .cLw low high immLs), (0xc000#16, 0xe003#16, true, .cSw low high immLs),
    (0x0001#16, 0xef83#16, true, .cNop imm6), (0x0001#16, 0xe003#16, rd != 0#5, .cAddi rd imm6),
    (0x2001#16, 0xe003#16, true, .cJal immJ), (0x4001#16, 0xe003#16, true, .cLi rd imm6),
    (0x6101#16, 0xef83#16, imm6 != 0#6, .cAddi16sp imm16sp),
    (0x6001#16, 0xe003#16, rd != 2#5 && imm6 != 0#6, .cLui rd imm6), (0x8001#16, 0xfc03#16, true, .cSrli high rs2),
    (0x8401#16, 0xfc03#16, true, .cSrai high rs2), (0x8801#16, 0xec03#16, true, .cAndi high imm6),
    (0x8c01#16, 0xfc63#16, true, .cSub high low) ]

/-- Rows of the opcode table for 16-bit instructions: C.XOR to C.SWSP. -/
def halfRows2 (h : Half) : List (Half × Half × Bool × Instr) :=
  let rd : Reg := h.extractLsb' 7 5
  let rs2 : Reg := h.extractLsb' 2 5
  let low : Reg := 1#2 ++ h.extractLsb' 2 3
  let high : Reg := 1#2 ++ h.extractLsb' 7 3
  let immJ : BitVec 12 := h.extractLsb' 12 1 ++ h.extractLsb' 8 1 ++ h.extractLsb' 9 2 ++ h.extractLsb' 6 1
    ++ h.extractLsb' 7 1 ++ h.extractLsb' 2 1 ++ h.extractLsb' 11 1 ++ h.extractLsb' 3 3 ++ 0#1
  let immB : BitVec 9 := h.extractLsb' 12 1 ++ h.extractLsb' 5 2 ++ h.extractLsb' 2 1 ++ h.extractLsb' 10 2
    ++ h.extractLsb' 3 2 ++ 0#1
  let immLwsp : BitVec 8 := h.extractLsb' 2 2 ++ h.extractLsb' 12 1 ++ h.extractLsb' 4 3 ++ 0#2
  let immSwsp : BitVec 8 := h.extractLsb' 7 2 ++ h.extractLsb' 9 4 ++ 0#2
  [ (0x8c21#16, 0xfc63#16, true, .cXor high low), (0x8c41#16, 0xfc63#16, true, .cOr high low),
    (0x8c61#16, 0xfc63#16, true, .cAnd high low), (0xa001#16, 0xe003#16, true, .cJ immJ),
    (0xc001#16, 0xe003#16, true, .cBeqz high immB), (0xe001#16, 0xe003#16, true, .cBnez high immB),
    (0x0002#16, 0xf003#16, true, .cSlli rd rs2), (0x4002#16, 0xe003#16, rd != 0#5, .cLwsp rd immLwsp),
    (0x8002#16, 0xf07f#16, rd != 0#5, .cJr rd), (0x8002#16, 0xf003#16, rs2 != 0#5, .cMv rd rs2),
    (0x9002#16, 0xffff#16, true, .cEbreak), (0x9002#16, 0xf07f#16, rd != 0#5, .cJalr rd),
    (0x9002#16, 0xf003#16, rs2 != 0#5, .cAdd rd rs2), (0xc002#16, 0xe003#16, true, .cSwsp rs2 immSwsp) ]

/-- The rows of the opcode table for 16-bit instructions: match, mask, constraint, and the instruction whose operands are
the fields of `h` where R352 to R378 place them. -/
def halfRows (h : Half) : List (Half × Half × Bool × Instr) := halfRows1 h ++ halfRows2 h

end Sys2Proof.Spec

/-- The state after reset (10_state.md R90, 70_reset_and_hazards.md R500). Choices and deductions of the model in it:
log entry 10. -/
def Obligations.ResetState : Prop :=
  ∀ (p : Config.Params) (h : Word) (m : Memory),
    let s := State.resetWith p h m
    (∀ r, readReg s r = if r = 11#5 then p.dtbAddr else 0#32) ∧ s.pc = BitVec.ofNat 32 p.ramBase ∧ s.priv = .machine ∧
    s.csr.status = 0#32 ∧ s.csr.ie = 0#32 ∧ s.csr.ip = 0#32 ∧
    (∀ q, s.csr.tvec.get q = 0#32 ∧ s.csr.epc.get q = 0#32 ∧ s.csr.cause.get q = 0#32 ∧ s.csr.tval.get q = 0#32 ∧
      s.csr.scratch.get q = 0#32) ∧
    s.csr.medeleg = 0#32 ∧ s.csr.sedeleg = 0#32 ∧ s.csr.mideleg = 0#32 ∧ s.csr.sideleg = 0#32 ∧
    s.csr.mcounteren = 0#32 ∧ s.csr.scounteren = 0#32 ∧ s.csr.uedeleg = 0#32 ∧ s.csr.uideleg = 0#32 ∧
    s.csr.ucounteren = 0#32 ∧ s.csr.hartid = h ∧ s.csr.satp = 0#32 ∧
    (∀ i, sparseGet i s.tlb = none) ∧ s.time = 0#64 ∧ s.timecmp = 0#64 ∧ s.waitEvent = false ∧ s.evTrap = false ∧
    s.evInt = false ∧ s.parked = false ∧ s.evIntMask = 0#32 ∧ s.rsv = none ∧ (∀ a, readByte s.mem a = readByte m a)

/-- The state after reset meets the invariant of the machine (10_state.md R90, 10_state.md R25, 10_state.md R40,
60_exceptions.md R470). Choices and deductions of the model in it: log entries 1, 3. -/
def Obligations.ResetInvariant : Prop :=
  Inv State.reset

/-- The first step after reset executes the instruction at RAM_BASE (70_reset_and_hazards.md R500, 60_exceptions.md
R470). Choices and deductions of the model in it: log entry 5. -/
def Obligations.FirstStepAfterReset : Prop :=
  ∀ (p : Config.Params) (h : Word) (m : Memory), paramsLegal p = true → h.toNat < p.nharts →
    (State.resetWith p h m).pc = BitVec.ofNat 32 p.ramBase ∧
    step (State.resetWith p h m) = rearmOutcome (runInstruction { State.resetWith p h m with waitEvent := true })

/-- Every step keeps the invariant of the machine (10_state.md R25, 10_state.md R40, 10_state.md R41, 10_state.md R51,
10_state.md R55, 10_state.md R56, 10_state.md R76, 20_memory.md R131, 44_a_atomic.md R320, 60_exceptions.md R453,
60_exceptions.md R470, 10_state.md R59). Choices and deductions of the model in it: log entries 8, 10, 13. -/
def Obligations.StepKeepsInvariant : Prop :=
  ∀ s t : State, Inv s → step s = .next t → Inv t

/-- No state stops the machine: every step answers a next state (70_reset_and_hazards.md R514, 70_reset_and_hazards.md
R517, 60_exceptions.md R440). Choices and deductions of the model in it: log entry 17. -/
def Obligations.StepAlwaysAnswers : Prop :=
  ∀ s : State, paramsLegal s.cfg = true → s.csr.hartid.toNat < s.cfg.nharts → ∃ t, step s = .next t

/-- No step changes the parameters, the MMIO table, hartid or the storage without a CSR, and time never decreases
(10_state.md R79, 10_state.md R58, 10_state.md R36, 60_exceptions.md R483). -/
def Obligations.ConfigurationFixed : Prop :=
  ∀ s t : State, step s = .next t → t.cfg = s.cfg ∧ t.csr.hartid = s.csr.hartid ∧ t.csr.uedeleg = s.csr.uedeleg ∧
    t.csr.uideleg = s.csr.uideleg ∧ t.csr.ucounteren = s.csr.ucounteren ∧ s.time.toNat ≤ t.time.toNat

/-- A step enters a higher mode only by a trap entry, and a lower one only by a trap return (10_state.md R27,
60_exceptions.md R485, 60_exceptions.md R450, 60_exceptions.md R451, 46_system_csr.md R403). -/
def Obligations.PrivilegeRisesByTrapsOnly : Prop :=
  (∀ (i : Instr) (s t : State), Spec.isTrapReturn i = false → exec i s = .next t → t.priv ≠ s.priv →
      s.priv.code.toNat < t.priv.code.toNat ∧
        ∃ cause tval epcval s1, Spec.TrapEntry t.priv cause tval epcval s1 t ∧ s1.priv = s.priv ∧ s1.pc = s.pc ∧
          (i ≠ .wfi → s1.csr = s.csr ∧ epcval = s.pc ∧ cause.getLsbD 31 = false) ∧
          (i = .wfi → s1 = Spec.folded s ∧ epcval = s.pc + 4#32 ∧ cause.getLsbD 31 = true)) ∧
    (∀ s t : State, step s = .next t → s.priv.code.toNat < t.priv.code.toNat →
      ∃ cause tval epcval s1 u, t = Spec.rearmed u ∧ Spec.TrapEntry t.priv cause tval epcval s1 u ∧
        s1.priv = s.priv ∧ s1.pc = s.pc ∧ s1.csr = { s.csr with ip := s1.csr.ip } ∧
        (epcval = s.pc ∨ epcval = s.pc + 4#32)) ∧
    ∀ s t : State, step s = .next t → t.priv.code.toNat < s.priv.code.toNat →
      ∃ i raw s0 s1 u, s0.priv = s.priv ∧ s0.pc = s.pc ∧ s0.mem = s.mem ∧ s0.tlb = s.tlb ∧
        s0.csr = { s.csr with ip := s0.csr.ip } ∧ fetchInstruction s0 = .ok raw s1 ∧ decodeRaw raw = .ok i ∧
        Spec.isTrapReturn i = true ∧ exec i s1 = .next u ∧ t = Spec.rearmed u

/-- An instruction that starts and ends in U mode changes no S or M register (10_state.md R33, 10_state.md R43,
10_state.md R45, 10_state.md R47, 60_exceptions.md R450, 60_exceptions.md R485). -/
def Obligations.UserModeConfinement : Prop :=
  ∀ (i : Instr) (s t : State), s.priv = .user → exec i s = .next t → t.priv = .user →
    (∀ p, p = .supervisor ∨ p = .machine → t.csr.tvec.get p = s.csr.tvec.get p ∧ t.csr.epc.get p = s.csr.epc.get p ∧
      t.csr.cause.get p = s.csr.cause.get p ∧ t.csr.tval.get p = s.csr.tval.get p ∧
      t.csr.scratch.get p = s.csr.scratch.get p) ∧
    t.csr.medeleg = s.csr.medeleg ∧ t.csr.sedeleg = s.csr.sedeleg ∧ t.csr.mideleg = s.csr.mideleg ∧
    t.csr.sideleg = s.csr.sideleg ∧ t.csr.mcounteren = s.csr.mcounteren ∧ t.csr.scounteren = s.csr.scounteren ∧
    t.csr.satp = s.csr.satp ∧ t.csr.hartid = s.csr.hartid ∧
    t.csr.status &&& ~~~0x11#32 = s.csr.status &&& ~~~0x11#32 ∧ t.csr.ie &&& ~~~0x111#32 = s.csr.ie &&& ~~~0x111#32 ∧
    (i ≠ .wfi → t.csr.ip &&& ~~~0x111#32 = s.csr.ip &&& ~~~0x111#32)

/-- With data translation off, no device and no other agent, only stores, SC.W and AMOs write memory (20_memory.md
R120, 20_memory.md R111, 20_memory.md R128). Choices and deductions of the model in it: log entry 6. -/
def Obligations.OnlyStoresWriteMemory : Prop :=
  ∀ (i : Instr) (s t : State), Spec.mayStore i = false → s.csr.satp.getLsbD 31 = false ∨ effPriv .load s = .machine →
    mmioRegions s.cfg = [] → s.interleaved = [] → exec i s = .next t → Spec.SameBytes s t

/-- A reservation is set only by LR.W (44_a_atomic.md R320, 44_a_atomic.md R339). -/
def Obligations.OnlyLoadReservedReserves : Prop :=
  ∀ (i : Instr) (s t : State), (∀ aq rl rd rs1, i ≠ .lrW aq rl rd rs1) → exec i s = .next t →
    t.rsv = s.rsv ∨ t.rsv = none

/-- Decoding the encoding of a well-formed instruction gives it back (30_encoding.md R185, 30_encoding.md R178,
30_encoding.md R184). -/
def Obligations.DecodeEncode : Prop :=
  ∀ (i : Instr) (rest : List Byte), i.wellFormed = true →
    decodeRaw (encode i) = .ok i ∧ decodeBytes (Spec.rawBytes (encode i) ++ rest) = .ok (i, rest)

/-- An instruction the decoder reads is well formed and encodes to the bits it was read from (30_encoding.md R180,
30_encoding.md R184, 30_encoding.md R185). -/
def Obligations.EncodeDecode : Prop :=
  ∀ (raw : RawInsn) (i : Instr), decodeRaw raw = .ok i → i.wellFormed = true ∧ encode i = raw

/-- The decoder reads exactly the rows of the opcode table, 32-bit and 16-bit, each as its instruction (30_encoding.md
R173, 30_encoding.md R174, 30_encoding.md R177, 30_encoding.md R179, 30_encoding.md R180, 30_encoding.md R185,
44_a_atomic.md R338, 46_system_csr.md R419, 45_c_compressed.md R352 to R378, 45_c_compressed.md R379,
45_c_compressed.md R380). -/
def Obligations.OpcodeTable : Prop :=
  (∀ (w m k : Word) (i : Instr), (m, k, i) ∈ Spec.wordRows w → w &&& k = m → decodeRaw (.word w) = .ok i) ∧
    (∀ (w : Word) (i : Instr), decodeRaw (.word w) = .ok i → ∃ m k, (m, k, i) ∈ Spec.wordRows w ∧ w &&& k = m) ∧
    (∀ (h m k : Half) (c : Bool) (i : Instr), (m, k, c, i) ∈ Spec.halfRows h → h &&& k = m → c = true →
      decodeRaw (.half h) = .ok i) ∧
    ∀ (h : Half) (i : Instr), decodeRaw (.half h) = .ok i →
      ∃ m k, (m, k, true, i) ∈ Spec.halfRows h ∧ h &&& k = m

/-- The illegal 16-bit encodings are exactly those listed (45_c_compressed.md R379, 30_encoding.md R182,
30_encoding.md R183). -/
def Obligations.IllegalHalfwords : Prop :=
  ∀ h : Half, h.extractLsb' 0 2 ≠ 3#2 →
    (((∃ e, decodeRaw (.half h) = .error e) ∨ decodeRaw (.half h) = .ok .cIllegal) ↔ Spec.IllegalHalf h)

/-- Words written out from the encodings decode to their instructions (40_rv32i_integer.md R203, 41_rv32i_control.md
R254, 42_rv32i_loadstore.md R278, 43_m_muldiv.md R305, 44_a_atomic.md R327, 45_c_compressed.md R360,
46_system_csr.md R408, 46_system_csr.md R412). -/
def Obligations.DecodeWords : Prop :=
  decodeTableWord 32 0xFFF08113 = some (.addi 2 1 0xFFF) ∧ decodeTableWord 32 0xFE209CE3 = some (.bne 1 2 0x1FF8) ∧
    decodeTableWord 32 0xFE20AE23 = some (.sw 2 1 0xFFC) ∧ decodeTableWord 32 0x020140B3 = some (.div 1 2 0) ∧
    decodeTableWord 32 0x18C523AF = some (.scW false false 7 12 10) ∧
    decodeTableWord 16 0x7281 = some (.cLui 5 0x20) ∧ decodeTableWord 32 0x12628073 = some (.sfenceVma 5 6) ∧
    decodeTableWord 32 0x340312F3 = some (.csrrw 5 0x340 6) ∧ decodeTableWord 32 0x00009073 = some (.csrrw 0 0 1) ∧
    decodeTableWord 16 0x8002 = none

/-- A step runs the instruction whose bytes the fetch at pc reads, translated or not (60_exceptions.md R470,
60_exceptions.md R464, 30_encoding.md R170, 30_encoding.md R171, 20_memory.md R117, 20_memory.md R120,
20_memory.md R103, 20_memory.md R141). Choices and deductions of the model in it: log entries 5, 6. -/
def Obligations.StepRunsDecoded : Prop :=
  ∀ (s t : State) (i : Instr) (bytes : List Byte), paramsLegal s.cfg = true → s.csr.hartid.toNat < s.cfg.nharts →
    (s.agenda = [] ∨ ∃ r, s.agenda = .hart :: r) → ¬ (s.parked = true ∧ s.waitEvent = true) →
    (s.waitEvent = false → s.evInt = true → s.parked = false → Spec.NoneFires false (Spec.folded s)) →
    let s0 : State := { (if s.waitEvent = false ∧ s.evInt = true ∧ s.parked = false then Spec.folded s else s) with
      waitEvent := true, parked := false, agenda := s.agenda.tail }
    Spec.Fetches s0 bytes t → decodeBytes bytes = .ok (i, []) → step s = rearmOutcome (exec i t)

/-- A fetch outside RAM or without translation traps with the address of its halfword (30_encoding.md R170,
20_memory.md R117, 60_exceptions.md R441, 60_exceptions.md R440, 20_memory.md R141). Choices and deductions of the
model in it: log entry 6. -/
def Obligations.FetchFaults : Prop :=
  ∀ s : State,
    (∀ e tv s1, translate s.pc .fetch s = .raise e tv s1 → Spec.Traps (runInstruction s) e.code s.pc s s1) ∧
    (∀ pa s1, translate s.pc .fetch s = .ok pa s1 → inRam s.cfg pa 2 = false →
      Spec.Traps (runInstruction s) 1 s.pc s s1) ∧
    (∀ pa s1, translate s.pc .fetch s = .ok pa s1 → inRam s.cfg pa 2 = true →
      let s2 := interleave s1
      (Spec.half s2.mem pa.toNat).extractLsb' 0 2 = 3#2 →
        (∀ e tv s3, translate (s.pc + 2#32) .fetch s2 = .raise e tv s3 →
          Spec.Traps (runInstruction s) e.code (s.pc + 2#32) s s3) ∧
        ∀ pb s3, translate (s.pc + 2#32) .fetch s2 = .ok pb s3 → inRam s.cfg pb 2 = false →
          Spec.Traps (runInstruction s) 1 (s.pc + 2#32) s s3)

/-- An illegal encoding traps with its raw bits in tval (30_encoding.md R180, 45_c_compressed.md R379,
60_exceptions.md R442). -/
def Obligations.IllegalEncodingsTrap : Prop :=
  (∀ (s s1 : State) (raw : RawInsn) (e : Reject), fetchInstruction s = .ok raw s1 → decodeRaw raw = .error e →
      Spec.Traps (runInstruction s) 2 (match raw with | .half h => h.zeroExtend 32 | .word w => w) s s1) ∧
    ∀ s : State, Spec.Traps (exec .cIllegal s) 2 0#32 s s

/-- Results of LUI, AUIPC and the register-immediate instructions (40_rv32i_integer.md R200, R201, R202, R203, R204,
R205, R206, R207, R208, R209, R210, R211). -/
def Obligations.IntegerImmediateResults : Prop :=
  ∀ (s : State) (rd rs1 : Reg) (imm20 : BitVec 20) (imm : BitVec 12) (shamt : BitVec 5),
    let x := readReg s rs1
    let next := s.pc + 4#32
    Spec.Computes (.lui rd imm20) rd (Spec.word (imm20.toNat * 4096)) next s ∧
    Spec.Computes (.auipc rd imm20) rd (Spec.word (s.pc.toNat + imm20.toNat * 4096)) next s ∧
    Spec.Computes (.addi rd rs1 imm) rd (Spec.word (x.toInt + imm.toInt)) next s ∧
    Spec.Computes (.slti rd rs1 imm) rd (Spec.flag (x.toInt < imm.toInt)) next s ∧
    Spec.Computes (.sltiu rd rs1 imm) rd (Spec.flag (x.toNat < (imm.signExtend 32).toNat)) next s ∧
    Spec.Computes (.xori rd rs1 imm) rd (x ^^^ imm.signExtend 32) next s ∧
    Spec.Computes (.ori rd rs1 imm) rd (x ||| imm.signExtend 32) next s ∧
    Spec.Computes (.andi rd rs1 imm) rd (x &&& imm.signExtend 32) next s ∧
    Spec.Computes (.slli rd rs1 shamt) rd (Spec.word (x.toNat * 2 ^ shamt.toNat)) next s ∧
    Spec.Computes (.srli rd rs1 shamt) rd (Spec.word (x.toNat / 2 ^ shamt.toNat)) next s ∧
    Spec.Computes (.srai rd rs1 shamt) rd (Spec.word (x.toInt / 2 ^ shamt.toNat)) next s

/-- Results of the register-register integer instructions (40_rv32i_integer.md R200, R212, R213, R214, R215, R216,
R217, R218, R219, R220, R221, R222). -/
def Obligations.IntegerRegisterResults : Prop :=
  ∀ (s : State) (rd rs1 rs2 : Reg),
    let x := readReg s rs1
    let y := readReg s rs2
    let next := s.pc + 4#32
    Spec.Computes (.add rd rs1 rs2) rd (Spec.word (x.toInt + y.toInt)) next s ∧
    Spec.Computes (.sub rd rs1 rs2) rd (Spec.word (x.toInt - y.toInt)) next s ∧
    Spec.Computes (.sll rd rs1 rs2) rd (Spec.word (x.toNat * 2 ^ (y.toNat % 32))) next s ∧
    Spec.Computes (.slt rd rs1 rs2) rd (Spec.flag (x.toInt < y.toInt)) next s ∧
    Spec.Computes (.sltu rd rs1 rs2) rd (Spec.flag (x.toNat < y.toNat)) next s ∧
    Spec.Computes (.xor rd rs1 rs2) rd (x ^^^ y) next s ∧
    Spec.Computes (.srl rd rs1 rs2) rd (Spec.word (x.toNat / 2 ^ (y.toNat % 32))) next s ∧
    Spec.Computes (.sra rd rs1 rs2) rd (Spec.word (x.toInt / 2 ^ (y.toNat % 32))) next s ∧
    Spec.Computes (.or rd rs1 rs2) rd (x ||| y) next s ∧
    Spec.Computes (.and rd rs1 rs2) rd (x &&& y) next s

/-- Results of MUL, MULH, MULHSU and MULHU (43_m_muldiv.md R301, R302, R303, R304, R309). -/
def Obligations.MultiplyResults : Prop :=
  ∀ (s : State) (rd rs1 rs2 : Reg),
    let x := readReg s rs1
    let y := readReg s rs2
    let next := s.pc + 4#32
    Spec.Computes (.mul rd rs1 rs2) rd (Spec.word (x.toInt * y.toInt)) next s ∧
    Spec.Computes (.mulh rd rs1 rs2) rd (Spec.word (x.toInt * y.toInt / 2 ^ 32)) next s ∧
    Spec.Computes (.mulhsu rd rs1 rs2) rd (Spec.word (x.toInt * y.toNat / 2 ^ 32)) next s ∧
    Spec.Computes (.mulhu rd rs1 rs2) rd (BitVec.ofNat 32 (x.toNat * y.toNat / 2 ^ 32)) next s

/-- Results of DIV, DIVU, REM and REMU, the special cases included (R310). -/
def Obligations.DivideResults : Prop :=
  ∀ (s : State) (rd rs1 rs2 : Reg),
    let x := readReg s rs1
    let y := readReg s rs2
    let next := s.pc + 4#32
    let overflow := x = 0x80000000#32 ∧ y = 0xFFFFFFFF#32
    Spec.Computes (.div rd rs1 rs2) rd (if y = 0#32 then 0xFFFFFFFF#32 else if overflow then 0x80000000#32
      else Spec.word (x.toInt.tdiv y.toInt)) next s ∧
    Spec.Computes (.divu rd rs1 rs2) rd (if y = 0#32 then 0xFFFFFFFF#32 else Spec.word (x.toNat / y.toNat)) next s ∧
    Spec.Computes (.rem rd rs1 rs2) rd (if y = 0#32 then x else if overflow then 0#32
      else Spec.word (x.toInt.tmod y.toInt)) next s ∧
    Spec.Computes (.remu rd rs1 rs2) rd (if y = 0#32 then x else Spec.word (x.toNat % y.toNat)) next s

/-- Results of the compressed computational instructions (45_c_compressed.md R350, R352 to R360 of 45_c_compressed.md,
R361 to R367 of 45_c_compressed.md, R371, R374, R377). -/
def Obligations.CompressedArithmeticResults : Prop :=
  ∀ (s : State) (rd rs2 : Reg) (imm : BitVec 6) (shamt : BitVec 5) (uimm10 : BitVec 10),
    let x := readReg s rd
    let y := readReg s rs2
    let sp := readReg s 2#5
    let next := s.pc + 2#32
    Spec.Computes (.cAddi4spn rd uimm10) rd (Spec.word (sp.toNat + uimm10.toNat)) next s ∧
    Spec.Goes (.cNop imm) next s ∧
    Spec.Computes (.cAddi rd imm) rd (Spec.word (x.toInt + imm.toInt)) next s ∧
    Spec.Computes (.cLi rd imm) rd (Spec.word imm.toInt) next s ∧
    Spec.Computes (.cAddi16sp uimm10) 2#5 (Spec.word (sp.toInt + uimm10.toInt)) next s ∧
    Spec.Computes (.cLui rd imm) rd (Spec.word (imm.toInt * 4096)) next s ∧
    Spec.Computes (.cSrli rd shamt) rd (Spec.word (x.toNat / 2 ^ shamt.toNat)) next s ∧
    Spec.Computes (.cSrai rd shamt) rd (Spec.word (x.toInt / 2 ^ shamt.toNat)) next s ∧
    Spec.Computes (.cAndi rd imm) rd (x &&& imm.signExtend 32) next s ∧
    Spec.Computes (.cSub rd rs2) rd (Spec.word (x.toInt - y.toInt)) next s ∧
    Spec.Computes (.cXor rd rs2) rd (x ^^^ y) next s ∧
    Spec.Computes (.cOr rd rs2) rd (x ||| y) next s ∧
    Spec.Computes (.cAnd rd rs2) rd (x &&& y) next s ∧
    Spec.Computes (.cSlli rd shamt) rd (Spec.word (x.toNat * 2 ^ shamt.toNat)) next s ∧
    Spec.Computes (.cMv rd rs2) rd y next s ∧
    Spec.Computes (.cAdd rd rs2) rd (Spec.word (x.toInt + y.toInt)) next s

/-- Jumps: the link, the target with bit 0 cleared, nothing else (41_rv32i_control.md R250, R251, R252, R357, R368,
R373, R376). -/
def Obligations.JumpResults : Prop :=
  ∀ (s : State) (rd rs1 : Reg) (off : BitVec 21) (imm : BitVec 12) (coff : BitVec 12),
    Spec.Computes (.jal rd off) rd (s.pc + 4#32) (Spec.word (s.pc.toNat + off.toInt)) s ∧
    Spec.Computes (.jalr rd rs1 imm) rd (s.pc + 4#32)
      ((Spec.word ((readReg s rs1).toInt + imm.toInt)).extractLsb' 1 31 ++ 0#1) s ∧
    Spec.Computes (.cJal coff) 1#5 (s.pc + 2#32) (Spec.word (s.pc.toNat + coff.toInt)) s ∧
    Spec.Goes (.cJ coff) (Spec.word (s.pc.toNat + coff.toInt)) s ∧
    Spec.Goes (.cJr rs1) ((readReg s rs1).extractLsb' 1 31 ++ 0#1) s ∧
    Spec.Computes (.cJalr rs1) 1#5 (s.pc + 2#32) ((readReg s rs1).extractLsb' 1 31 ++ 0#1) s

/-- Branches: taken exactly on their condition, relative to their own address (41_rv32i_control.md R250, R253, R254,
R255, R256, R257, R258, R369, R370). -/
def Obligations.BranchResults : Prop :=
  ∀ (s : State) (rs1 rs2 : Reg) (off : BitVec 13) (coff : BitVec 9),
    let x := readReg s rs1
    let y := readReg s rs2
    let tgt := Spec.word (s.pc.toNat + off.toInt)
    let ctgt := Spec.word (s.pc.toNat + coff.toInt)
    Spec.Goes (.beq rs1 rs2 off) (if x = y then tgt else s.pc + 4#32) s ∧
    Spec.Goes (.bne rs1 rs2 off) (if x ≠ y then tgt else s.pc + 4#32) s ∧
    Spec.Goes (.blt rs1 rs2 off) (if x.toInt < y.toInt then tgt else s.pc + 4#32) s ∧
    Spec.Goes (.bge rs1 rs2 off) (if y.toInt ≤ x.toInt then tgt else s.pc + 4#32) s ∧
    Spec.Goes (.bltu rs1 rs2 off) (if x.toNat < y.toNat then tgt else s.pc + 4#32) s ∧
    Spec.Goes (.bgeu rs1 rs2 off) (if y.toNat ≤ x.toNat then tgt else s.pc + 4#32) s ∧
    Spec.Goes (.cBeqz rs1 coff) (if x = 0#32 then ctgt else s.pc + 2#32) s ∧
    Spec.Goes (.cBnez rs1 coff) (if x ≠ 0#32 then ctgt else s.pc + 2#32) s

/-- Loads from RAM: the little-endian bytes, extended; nothing else (42_rv32i_loadstore.md R270, R271, R272, R273,
R274, R275, R353, R372, 20_memory.md R100). Choices and deductions of the model in it: log entry 6. -/
def Obligations.LoadResults : Prop :=
  ∀ (s : State) (rd rs1 : Reg) (imm : BitVec 12) (uimm7 : BitVec 7) (uimm8 : BitVec 8),
    let va := readReg s rs1 + imm.signExtend 32
    Spec.LoadsFromRam (.lb rd rs1 imm) rd va 1 4#32 (fun m a => (readByte m a).signExtend 32) s ∧
    Spec.LoadsFromRam (.lh rd rs1 imm) rd va 2 4#32 (fun m a => (Spec.half m a).signExtend 32) s ∧
    Spec.LoadsFromRam (.lw rd rs1 imm) rd va 4 4#32 Spec.word4 s ∧
    Spec.LoadsFromRam (.lbu rd rs1 imm) rd va 1 4#32 (fun m a => (readByte m a).zeroExtend 32) s ∧
    Spec.LoadsFromRam (.lhu rd rs1 imm) rd va 2 4#32 (fun m a => (Spec.half m a).zeroExtend 32) s ∧
    Spec.LoadsFromRam (.cLw rd rs1 uimm7) rd (readReg s rs1 + uimm7.zeroExtend 32) 4 2#32 Spec.word4 s ∧
    Spec.LoadsFromRam (.cLwsp rd uimm8) rd (readReg s 2#5 + uimm8.zeroExtend 32) 4 2#32 Spec.word4 s

/-- Stores to RAM: the bytes, the reservation, and nothing else (42_rv32i_loadstore.md R270, R276, R277, R278, R354,
R378, 44_a_atomic.md R323, 20_memory.md R111). Choices and deductions of the model in it: log entry 6. -/
def Obligations.StoreResults : Prop :=
  ∀ (s : State) (rs2 rs1 : Reg) (imm : BitVec 12) (uimm7 : BitVec 7) (uimm8 : BitVec 8),
    let va := readReg s rs1 + imm.signExtend 32
    let v := readReg s rs2
    Spec.StoresToRam (.sb rs2 rs1 imm) va 1 v 4#32 s ∧
    Spec.StoresToRam (.sh rs2 rs1 imm) va 2 v 4#32 s ∧
    Spec.StoresToRam (.sw rs2 rs1 imm) va 4 v 4#32 s ∧
    Spec.StoresToRam (.cSw rs2 rs1 uimm7) (readReg s rs1 + uimm7.zeroExtend 32) 4 v 2#32 s ∧
    Spec.StoresToRam (.cSwsp rs2 uimm8) (readReg s 2#5 + uimm8.zeroExtend 32) 4 v 2#32 s

/-- A word stored is the word loaded next, and its bytes stand in little-endian order (20_memory.md R100,
42_rv32i_loadstore.md R273, 42_rv32i_loadstore.md R274, 42_rv32i_loadstore.md R278, 70_reset_and_hazards.md R510).
Choices and deductions of the model in it: log entry 6. -/
def Obligations.StoreThenLoad : Prop :=
  ∀ (s : State) (rs2 rs1 rd : Reg) (imm k : BitVec 12), s.mem.wf = true → s.interleaved = [] → rd ≠ 0#5 → k.toNat < 4 →
    effPriv .load s = .machine ∨ s.csr.satp.getLsbD 31 = false →
    (readReg s rs1 + imm.signExtend 32).toNat % 4 = 0 →
    inRam s.cfg ((readReg s rs1 + imm.signExtend 32).zeroExtend 34) 4 = true →
    ∃ t u v, exec (.sw rs2 rs1 imm) s = .next t ∧ exec (.lw rd rs1 imm) t = .next u ∧
      readReg u rd = readReg s rs2 ∧ exec (.lbu rd rs1 (imm + k)) t = .next v ∧
      ((imm + k).toInt = imm.toInt + k.toNat → readReg v rd = (Spec.byteOf (readReg s rs2) k.toNat).zeroExtend 32)

/-- A misaligned data access traps before it is translated (R104). -/
def Obligations.MisalignedAccessTraps : Prop :=
  ∀ (i : Instr) (s : State) (ty : AccessType) (va : Word) (n : Nat), Spec.memForm i s = some (ty, va, n) →
    va.toNat % n ≠ 0 → Spec.Traps (exec i s) (if ty = .load then 4 else 6) va s s

/-- A data access whose translation raises takes that exception (42_rv32i_loadstore.md R270, 44_a_atomic.md R325,
60_exceptions.md R441, 20_memory.md R123). -/
def Obligations.TranslationFaultsTrap : Prop :=
  ∀ (i : Instr) (s : State) (ty : AccessType) (va : Word) (n : Nat) (e : Exception) (tv : Word) (s1 : State),
    Spec.memForm i s = some (ty, va, n) → va.toNat % n = 0 → translate va ty s = .raise e tv s1 →
    Spec.Traps (exec i s) e.code va s s1

/-- A data access that no memory serves traps with its virtual address (20_memory.md R110, 20_memory.md R112,
44_a_atomic.md R325, 60_exceptions.md R440). -/
def Obligations.UnmappedAccessTraps : Prop :=
  ∀ (i : Instr) (s : State) (ty : AccessType) (va : Word) (n : Nat) (pa : PhysAddr) (s1 : State),
    Spec.memForm i s = some (ty, va, n) → va.toNat % n = 0 → translate va ty s = .ok pa s1 →
    (if Spec.isAtomic i = true then inRam s.cfg pa 4 = false else Spec.Unmapped pa n s) →
    Spec.Traps (exec i s) (if ty = .load then 5 else 7) va s s1

/-- A load that reaches a device makes one handler call and takes its answer (20_memory.md R110, 20_memory.md R112,
20_memory.md R113, 20_memory.md R115, 70_reset_and_hazards.md R520). Choices and deductions of the model in it:
log entries 4, 6, 11. -/
def Obligations.DeviceLoads : Prop :=
  ∀ (i : Instr) (s : State) (rd : Reg) (va : Word) (w : Width) (value : Word → Word) (len : Word) (pa : PhysAddr)
    (s1 : State) (r : Config.Region), Spec.loadForm i s = some (rd, va, w, value, len) → va.toNat % w.bytes = 0 →
    translate va .load s = .ok pa s1 → pa.toNat < 2 ^ 32 → inRam s.cfg pa w.bytes = false → mmioLookup s.cfg pa = some r →
    let acc : Config.MmioAccess := { region := r, offset := pa.toNat - r.base, width := w, kind := .read }
    let s2 := interleave s1
    let ans := Config.mmioHandler
      { hart := s.csr.hartid, devices := s2.devices, time := s2.time, timecmp := s2.timecmp, ram := s2.mem } acc
    let s3 := ans.actions.foldl deviceAct { s2 with devices := ans.devices, mmioLog := acc :: s.mmioLog }
    ∃ t, exec i s = .next t ∧ t.mmioLog = acc :: s.mmioLog ∧ t.devices = ans.devices ∧
      if ans.ok then Spec.Wrote rd (value ans.data) s t ∧ t.pc = s.pc + len ∧ t.priv = s.priv ∧ t.csr = s.csr ∧
        t.tlb = s1.tlb ∧ t.rsv = s2.rsv ∧ Spec.SameHart s3 t ∧ Spec.SameShared s3 t ∧ Spec.SameBytes s3 t
      else s3.csr = s.csr ∧ s3.priv = s.priv ∧ Spec.SameRegs s s3 ∧
        Spec.TrapEntry (Spec.exceptionLevel 5 s) 5#32 va s.pc s3 t

/-- A store that reaches a device makes one handler call with the stored bytes (20_memory.md R111, 20_memory.md R112,
20_memory.md R113, 44_a_atomic.md R323, 70_reset_and_hazards.md R520). Choices and deductions of the model in it:
log entries 4, 6, 11. -/
def Obligations.DeviceStores : Prop :=
  ∀ (i : Instr) (s : State) (va : Word) (w : Width) (v len : Word) (pa : PhysAddr) (s1 : State) (r : Config.Region),
    Spec.storeForm i s = some (va, w, v, len) → va.toNat % w.bytes = 0 →
    translate va .store s = .ok pa s1 → pa.toNat < 2 ^ 32 → inRam s.cfg pa w.bytes = false → mmioLookup s.cfg pa = some r →
    let acc : Config.MmioAccess := { region := r, offset := pa.toNat - r.base, width := w, kind := .write v }
    let s2 := interleave s1
    let ans := Config.mmioHandler
      { hart := s.csr.hartid, devices := s2.devices, time := s2.time, timecmp := s2.timecmp, ram := s2.mem } acc
    let s3 := ans.actions.foldl deviceAct { s2 with devices := ans.devices, mmioLog := acc :: s.mmioLog }
    ∃ t, exec i s = .next t ∧ t.mmioLog = acc :: s.mmioLog ∧ t.devices = ans.devices ∧ Spec.SameRegs s t ∧
      if ans.ok then t.pc = s.pc + len ∧ t.priv = s.priv ∧ t.csr = s.csr ∧ t.tlb = s1.tlb ∧ t.rsv = s2.rsv ∧
        Spec.SameHart s3 t ∧ Spec.SameShared s3 t ∧ Spec.SameBytes s3 t
      else s3.csr = s.csr ∧ s3.priv = s.priv ∧ Spec.TrapEntry (Spec.exceptionLevel 7 s) 7#32 va s.pc s3 t

/-- FENCE and FENCE.I only advance pc, whatever their fields (R290, R291). -/
def Obligations.FencesDoNothing : Prop :=
  ∀ (s : State) (fm pred succ : BitVec 4) (rs1 rd : Reg) (imm : BitVec 12),
    Spec.Goes (.fence fm pred succ rs1 rd) (s.pc + 4#32) s ∧ Spec.Goes (.fenceI imm rs1 rd) (s.pc + 4#32) s ∧
    encode (.fence fm pred succ rs1 rd) = .word (fm ++ pred ++ succ ++ rs1 ++ 0b000#3 ++ rd ++ 0b0001111#7) ∧
    encode (.fenceI imm rs1 rd) = .word (imm ++ rs1 ++ 0b001#3 ++ rd ++ 0b0001111#7)

/-- LR.W loads the word and reserves its physical address (44_a_atomic.md R320, R325, R326). Choices and deductions of
the model in it: log entry 6. -/
def Obligations.LoadReservedResult : Prop :=
  ∀ (s : State) (aq rl : Bool) (rd rs1 : Reg) (pa : PhysAddr) (s1 : State), (readReg s rs1).toNat % 4 = 0 →
    translate (readReg s rs1) .load s = .ok pa s1 → inRam s.cfg pa 4 = true →
    let s2 := interleave s1
    ∃ t, exec (.lrW aq rl rd rs1) s = .next t ∧ Spec.Wrote rd (Spec.word4 s2.mem pa.toNat) s t ∧ t.rsv = some pa ∧
      t.pc = s.pc + 4#32 ∧ Spec.SameHart s t ∧ Spec.SameShared s2 t ∧ t.tlb = s1.tlb ∧ Spec.SameBytes s2 t

/-- SC.W stores and answers 0 exactly if the reservation is on its word; it clears it either way (44_a_atomic.md R321,
R325, R327). Choices and deductions of the model in it: log entry 6. -/
def Obligations.StoreConditionalResult : Prop :=
  ∀ (s : State) (aq rl : Bool) (rd rs2 rs1 : Reg) (pa : PhysAddr) (s1 : State), s.mem.wf = true →
    (readReg s rs1).toNat % 4 = 0 → translate (readReg s rs1) .store s = .ok pa s1 → inRam s.cfg pa 4 = true →
    let s2 := interleave s1
    ∃ t, exec (.scW aq rl rd rs2 rs1) s = .next t ∧ t.rsv = none ∧ t.pc = s.pc + 4#32 ∧ Spec.SameHart s t ∧
      Spec.SameShared s2 t ∧ t.tlb = s1.tlb ∧
      (s2.rsv = some pa → Spec.Wrote rd 0#32 s t ∧ Spec.word4 t.mem pa.toNat = readReg s rs2 ∧
        Spec.SameBytesOutside pa.toNat 4 s2 t) ∧
      (s2.rsv ≠ some pa → Spec.Wrote rd 1#32 s t ∧ Spec.SameBytes s2 t)

/-- The nine AMOs: old word to x[rd], new word to memory, one event (44_a_atomic.md R325, R328, R329, R330, R331,
R332, R333, R334, R335, R336, R337, R323). Choices and deductions of the model in it: log entry 6. -/
def Obligations.AmoResults : Prop :=
  ∀ (s : State) (aq rl : Bool) (rd rs2 rs1 : Reg),
    Spec.AmoOnRam (.amoswapW aq rl rd rs2 rs1) (fun _ src => src) rd rs2 rs1 s ∧
    Spec.AmoOnRam (.amoaddW aq rl rd rs2 rs1) (fun old src => Spec.word (old.toInt + src.toInt)) rd rs2 rs1 s ∧
    Spec.AmoOnRam (.amoxorW aq rl rd rs2 rs1) (fun old src => old ^^^ src) rd rs2 rs1 s ∧
    Spec.AmoOnRam (.amoandW aq rl rd rs2 rs1) (fun old src => old &&& src) rd rs2 rs1 s ∧
    Spec.AmoOnRam (.amoorW aq rl rd rs2 rs1) (fun old src => old ||| src) rd rs2 rs1 s ∧
    Spec.AmoOnRam (.amominW aq rl rd rs2 rs1) (fun old src => Spec.word (min old.toInt src.toInt)) rd rs2 rs1 s ∧
    Spec.AmoOnRam (.amomaxW aq rl rd rs2 rs1) (fun old src => Spec.word (max old.toInt src.toInt)) rd rs2 rs1 s ∧
    Spec.AmoOnRam (.amominuW aq rl rd rs2 rs1) (fun old src => Spec.word (min old.toNat src.toNat : Nat)) rd rs2 rs1 s ∧
    Spec.AmoOnRam (.amomaxuW aq rl rd rs2 rs1) (fun old src => Spec.word (max old.toNat src.toNat : Nat)) rd rs2 rs1 s

/-- SC.W after LR.W on the same word succeeds; an AMO in between makes it fail (44_a_atomic.md R323, 44_a_atomic.md
R326, 44_a_atomic.md R327, 44_a_atomic.md R330, 44_a_atomic.md R339). Choices and deductions of the model in it:
log entry 6. -/
def Obligations.LoadReservedStoreConditional : Prop :=
  ∀ (s : State) (rd1 rd2 rd3 rs1 rs2 : Reg), s.mem.wf = true → s.interleaved = [] →
    effPriv .load s = .machine ∨ s.csr.satp.getLsbD 31 = false → (readReg s rs1).toNat % 4 = 0 →
    inRam s.cfg ((readReg s rs1).zeroExtend 34) 4 = true → rd1 ≠ rs1 → rd1 ≠ rs2 → rd2 ≠ rs1 → rd2 ≠ rs2 → rd3 ≠ 0#5 →
    ∃ t u v w, exec (.lrW false false rd1 rs1) s = .next t ∧
      exec (.scW false false rd3 rs2 rs1) t = .next u ∧ readReg u rd3 = 0#32 ∧
      Spec.word4 u.mem (readReg s rs1).toNat = readReg s rs2 ∧
      exec (.amoaddW false false rd2 rs2 rs1) t = .next v ∧ exec (.scW false false rd3 rs2 rs1) v = .next w ∧
      readReg w rd3 = 1#32 ∧
      Spec.word4 w.mem (readReg s rs1).toNat = Spec.word4 s.mem (readReg s rs1).toNat + readReg s rs2

/-- Trap entry: what is saved, what status becomes, where pc goes, and nothing else (60_exceptions.md R450,
60_exceptions.md R452, 60_exceptions.md R453). -/
def Obligations.TrapEntryEffect : Prop :=
  ∀ (p : Priv) (cause tval epcval : Word) (s : State),
    Spec.TrapEntry p cause tval epcval s (takeTrap p cause tval epcval s)

/-- Which level an exception is handled at (R451). -/
def Obligations.ExceptionTargetRule : Prop :=
  ∀ (c : Nat) (s : State), exceptionTarget c s = Spec.exceptionLevel c s

/-- ECALL, EBREAK and C.EBREAK take their exception from every state (46_system_csr.md R401, 46_system_csr.md R402,
45_c_compressed.md R375, 60_exceptions.md R450, 60_exceptions.md R451). -/
def Obligations.CallsAndBreakpointsTrap : Prop :=
  ∀ s : State,
    Spec.Traps (exec .ecall s) (match s.priv with | .user => 8 | .supervisor => 9 | .machine => 11) 0#32 s s ∧
    Spec.Traps (exec .ebreak s) 3 0#32 s s ∧ Spec.Traps (exec .cEbreak s) 3 0#32 s s

/-- URET, SRET and MRET where the privilege allows them (46_system_csr.md R403, 46_system_csr.md R404,
46_system_csr.md R405, 46_system_csr.md R406, 60_exceptions.md R466). -/
def Obligations.TrapReturnResults : Prop :=
  ∀ (s : State) (i : Instr) (x : Priv), (i, x) ∈ [(.uret, .user), (.sret, .supervisor), (.mret, .machine)] →
    x.code.toNat ≤ s.priv.code.toNat → statusMPP s.csr.status ≠ 2#2 →
    ∃ t, exec i s = .next t ∧ statusIE t.csr.status x = statusPIE s.csr.status x ∧ statusPIE t.csr.status x = true ∧
      (x = .machine → statusMPP t.csr.status = 0#2 ∧ t.priv.code = statusMPP s.csr.status) ∧
      (x = .supervisor → statusSPP t.csr.status = false ∧
        t.priv = if statusSPP s.csr.status then .supervisor else .user) ∧
      (x = .user → t.priv = .user) ∧
      (∀ j < 32, j ≠ ieBit x → j ≠ pieBit x → (x = .machine → j ≠ 11 ∧ j ≠ 12) → (x = .supervisor → j ≠ 8) →
        t.csr.status.getLsbD j = s.csr.status.getLsbD j) ∧
      t.csr = { s.csr with status := t.csr.status } ∧ t.pc = s.csr.epc.get x ∧
      t.tlb = (if translationContext t = translationContext s then s.tlb else []) ∧ t.evInt = true ∧ t.waitEvent = false ∧
      Spec.SameRegs s t ∧ Spec.SameBytes s t ∧ t.rsv = s.rsv ∧ t.evIntMask = s.evIntMask ∧ t.evTrap = s.evTrap ∧
      t.parked = s.parked ∧ t.time = s.time ∧ t.timecmp = s.timecmp ∧ t.cfg = s.cfg ∧ t.devices = s.devices ∧
      t.mmioLog = s.mmioLog ∧ t.agenda = s.agenda ∧ t.interleaved = s.interleaved

/-- SRET, MRET and SFENCE.VMA below their privilege are illegal instructions (46_system_csr.md R400, 46_system_csr.md
R403, 46_system_csr.md R408). -/
def Obligations.PrivilegedInstructionsTrap : Prop :=
  ∀ (s : State) (rs1 rs2 : Reg),
    (s.priv = .user → Spec.Traps (exec .sret s) 2 0x10200073#32 s s) ∧
    (s.priv ≠ .machine → Spec.Traps (exec .mret s) 2 0x30200073#32 s s) ∧
    (s.priv = .user →
      Spec.Traps (exec (.sfenceVma rs1 rs2) s) 2 (0b0001001#7 ++ rs2 ++ rs1 ++ 0b00000000#8 ++ 0b1110011#7) s s)

/-- WFI takes the first pending enabled interrupt, even with the global enable clear (46_system_csr.md R407,
60_exceptions.md R461, 60_exceptions.md R463, 60_exceptions.md R464, 60_exceptions.md R465, 60_exceptions.md
R450). -/
def Obligations.WaitForInterruptTakes : Prop :=
  ∀ (s : State) (i : Nat), Spec.FirstFiring true i (Spec.folded s) →
    ∃ t, exec .wfi s = .next t ∧
      Spec.TrapEntry (Spec.interruptLevel i s) (Spec.interruptCause i) 0#32 (s.pc + 4#32) (Spec.folded s) t

/-- WFI with nothing to take parks: pc stays and only the folded flags and parked change (46_system_csr.md R407,
60_exceptions.md R464, 60_exceptions.md R472). -/
def Obligations.WaitForInterruptParks : Prop :=
  ∀ s : State, Spec.NoneFires true (Spec.folded s) →
    ∃ t, exec .wfi s = .next t ∧ t.parked = true ∧ t.pc = s.pc ∧ t.csr = (Spec.folded s).csr ∧ t.evIntMask = 0#32 ∧
      t.evInt = false ∧ Spec.SameRegs s t ∧ Spec.SameBytes s t ∧ t.priv = s.priv ∧ t.tlb = s.tlb ∧ t.rsv = s.rsv ∧
      t.waitEvent = s.waitEvent ∧ t.evTrap = s.evTrap ∧ t.time = s.time ∧ t.timecmp = s.timecmp ∧ t.cfg = s.cfg ∧
      t.devices = s.devices ∧ t.mmioLog = s.mmioLog ∧ t.agenda = s.agenda ∧ t.interleaved = s.interleaved

/-- SFENCE.VMA invalidates every TLB entry and the next access walks (46_system_csr.md R408, 20_memory.md R132,
20_memory.md R133). Choices and deductions of the model in it: log entry 10. -/
def Obligations.SfenceFlushes : Prop :=
  ∀ (s : State) (rs1 rs2 : Reg), s.priv ≠ .user →
    ∃ t, exec (.sfenceVma rs1 rs2) s = .next t ∧ (∀ i, sparseGet i t.tlb = none) ∧ t.pc = s.pc + 4#32 ∧
      Spec.SameControl s t ∧ Spec.SameRegs s t ∧ Spec.SameBytes s t ∧ t.rsv = s.rsv ∧
      ∀ va ty, t.csr.satp.getLsbD 31 = true → effPriv ty t ≠ .machine → Spec.Walks va ty t

/-- The six CSR instructions: old value to x[rd], masked write, side effect (10_state.md R31, 10_state.md R37,
10_state.md R41, 20_memory.md R133, 20_memory.md R134, 60_exceptions.md R466, 46_system_csr.md R410,
46_system_csr.md R411, 46_system_csr.md R412 to R417). -/
def Obligations.CsrInstructionResults : Prop :=
  ∀ (i : Instr) (s : State) (a : CsrAddr) (op : CsrOp) (src : Word) (rd : Reg) (row : CsrRow),
    Spec.csrForm i s = some (a, op, src, rd) → Spec.CsrAllowed a op s → csrFind a = some row →
    let old := readStorage s.csr row.storage &&& row.rmask
    let new := match op with | .read => old | .write => src | .set => old ||| src | .clear => old &&& ~~~src
    let mask := if row.storage = .status ∧ new.extractLsb' 11 2 = 2#2 then row.wmask &&& ~~~0x1800#32 else row.wmask
    ∃ t, exec i s = .next t ∧ Spec.Wrote rd old s t ∧ t.pc = s.pc + 4#32 ∧ Spec.SameBytes s t ∧ t.priv = s.priv ∧
      t.rsv = s.rsv ∧ t.evIntMask = s.evIntMask ∧ t.evTrap = s.evTrap ∧ t.parked = s.parked ∧ t.time = s.time ∧
      t.timecmp = s.timecmp ∧ t.cfg = s.cfg ∧ t.devices = s.devices ∧ t.mmioLog = s.mmioLog ∧ t.agenda = s.agenda ∧
      t.interleaved = s.interleaved ∧ (op = .read → t.csr = s.csr ∧ t.tlb = s.tlb ∧ t.evInt = s.evInt ∧ t.waitEvent = s.waitEvent) ∧
      (op ≠ .read →
        readStorage t.csr row.storage = Spec.merge mask (readStorage s.csr row.storage) new ∧
        (∀ st, st ≠ row.storage → readStorage t.csr st = readStorage s.csr st) ∧
        t.csr.uedeleg = s.csr.uedeleg ∧ t.csr.uideleg = s.csr.uideleg ∧ t.csr.ucounteren = s.csr.ucounteren ∧
        t.tlb = (if a = 0x180#12 then [] else if translationContext t = translationContext s then s.tlb else []) ∧
        (if a ∈ Spec.selfSignalling then t.evInt = true ∧ t.waitEvent = false
          else t.evInt = s.evInt ∧ t.waitEvent = s.waitEvent))

/-- A CSR access above the privilege, to no CSR, or writing a read-only one is illegal (R33). -/
def Obligations.CsrAccessDenied : Prop :=
  ∀ (i : Instr) (s : State) (a : CsrAddr) (op : CsrOp) (src : Word) (rd : Reg),
    Spec.csrForm i s = some (a, op, src, rd) → ¬ Spec.CsrAllowed a op s →
    Spec.Traps (exec i s) 2 (encode i).bits s s

/-- The implemented CSRs, what each reads as, and that every other address is illegal (10_state.md R30, 10_state.md
R32, 10_state.md R37, 10_state.md R61, 10_state.md R62). -/
def Obligations.CsrMap : Prop :=
  (∀ (s : State) (rd : Reg) (a : CsrAddr) (v : Word), (a.extractLsb' 8 2).toNat ≤ s.priv.code.toNat → (a, v) ∈ Spec.csrReads s.csr →
      Spec.Computes (.csrrs rd a 0#5) rd v (s.pc + 4#32) s) ∧
    ∀ (s : State) (a : CsrAddr), (∀ v, (a, v) ∉ Spec.csrReads s.csr) → csrFind a = none

/-- What a CSRRW leaves in the CSR file (10_state.md R37, 10_state.md R45, 10_state.md R47, 10_state.md R50,
10_state.md R51, 10_state.md R55, 10_state.md R56, 10_state.md R59, 10_state.md R61). -/
def Obligations.CsrWrites : Prop :=
  ∀ (s : State) (rd rs1 : Reg) (a : CsrAddr) (c : CsrFile), (a.extractLsb' 8 2).toNat ≤ s.priv.code.toNat →
    (a, c) ∈ Spec.csrWrites s.csr (readReg s rs1) →
    ∃ t, exec (.csrrw rd a rs1) s = .next t ∧ t.csr = c ∧ t.pc = s.pc + 4#32 ∧ t.priv = s.priv

/-- mstatus, sstatus and ustatus are views of one register, and MPP never takes 2 (R41, R42, R43). -/
def Obligations.StatusViews : Prop :=
  ∀ (i : Instr) (s : State) (a : CsrAddr) (op : CsrOp) (src : Word) (rd : Reg) (view : Word),
    Spec.csrForm i s = some (a, op, src, rd) → (a.extractLsb' 8 2).toNat ≤ s.priv.code.toNat →
    (a, view) ∈ [(0x300#12, 0x000E19BB#32), (0x100#12, 0x000C0133#32), (0x000#12, 0x00000011#32)] →
    let old := s.csr.status &&& view
    let new := match op with | .read => old | .write => src | .set => old ||| src | .clear => old &&& ~~~src
    let mask := if a = 0x300#12 ∧ new.extractLsb' 11 2 = 2#2 then 0x000E01BB#32 else view
    (op = .read → Spec.Computes i rd old (s.pc + 4#32) s) ∧
    (op ≠ .read → ∃ t, exec i s = .next t ∧ Spec.Wrote rd old s t ∧
      t.csr = { s.csr with status := Spec.merge mask s.csr.status new } ∧
      t.tlb = (if translationContext t = translationContext s then s.tlb else []) ∧ t.evInt = true ∧
      t.waitEvent = false ∧ t.pc = s.pc + 4#32 ∧ t.priv = s.priv ∧ Spec.SameBytes s t)

/-- Effective privilege, the identity where translation is off, and the TLB hit (20_memory.md R120, 20_memory.md R121,
20_memory.md R130, 10_state.md R70). Choices and deductions of the model in it: log entry 10. -/
def Obligations.TranslationWithoutWalk : Prop :=
  ∀ (s : State) (va : Word) (ty : AccessType),
    effPriv .fetch s = s.priv ∧
    (ty ≠ .fetch → s.csr.status.getLsbD 17 = false → effPriv ty s = s.priv) ∧
    (ty ≠ .fetch → s.csr.status.getLsbD 17 = true → s.csr.status.extractLsb' 11 2 ≠ 2#2 →
      (effPriv ty s).code = s.csr.status.extractLsb' 11 2) ∧
    (s.csr.satp.getLsbD 31 = false ∨ effPriv ty s = .machine → translate va ty s = .ok (va.zeroExtend 34) s) ∧
    ∀ e : TlbEntry, s.csr.satp.getLsbD 31 = true → effPriv ty s ≠ .machine →
      sparseGet ((va.extractLsb' 12 20).toNat &&& (s.cfg.tlbN - 1)) s.tlb = some e → e.vpn = va.extractLsb' 12 20 →
      (match ty with | .fetch => e.perm.fetch | .load => e.perm.load | .store => e.perm.store) = true →
      translate va ty s = .ok (0#2 ++ e.ppn ++ va.extractLsb' 0 12) s

/-- A two-level walk that succeeds: the address, the A and D bits, the TLB entry (20_memory.md R122, 20_memory.md
R123, 20_memory.md R126, 20_memory.md R128, 20_memory.md R131, 20_memory.md R141). Choices and deductions of the
model in it: log entries 6, 10. -/
def Obligations.WalkFourKiB : Prop :=
  ∀ (s : State) (va : Word) (ty : AccessType), s.mem.wf = true → Spec.Walks va ty s →
    let s1 := interleave s
    let pte1 := Spec.word4 s1.mem (Spec.entry1 va s).toNat
    let a0 := Spec.entry0 pte1 va
    let s2 := interleave s1
    let pte0 := Spec.word4 s2.mem a0.toNat
    inRam s.cfg (Spec.entry1 va s) 4 = true → ¬ Spec.Invalid pte1 → ¬ Spec.Leaf pte1 → inRam s.cfg a0 4 = true →
    ¬ Spec.Invalid pte0 → Spec.Leaf pte0 → Spec.Allowed pte0 ty s →
    let pa := BitVec.ofNat 34 ((pte0.extractLsb' 10 22).toNat * 4096 + va.toNat % 4096)
    ∃ t, translate va ty s = .ok pa t ∧ Spec.Walked va ty a0 pte0 pa s2 t

/-- A 4 MiB superpage: its address, its alignment, its A and D bits (20_memory.md R123, 20_memory.md R127,
20_memory.md R128, 20_memory.md R131, 20_memory.md R141). Choices and deductions of the model in it: log entries
6, 10. -/
def Obligations.WalkSuperpage : Prop :=
  ∀ (s : State) (va : Word) (ty : AccessType), s.mem.wf = true → Spec.Walks va ty s →
    let s1 := interleave s
    let pte := Spec.word4 s1.mem (Spec.entry1 va s).toNat
    inRam s.cfg (Spec.entry1 va s) 4 = true → ¬ Spec.Invalid pte → Spec.Leaf pte → Spec.Allowed pte ty s →
    let pa := BitVec.ofNat 34 ((pte.extractLsb' 20 12).toNat * 2 ^ 22 + va.toNat % 2 ^ 22)
    (pte.extractLsb' 10 10 = 0#10 →
      ∃ t, translate va ty s = .ok pa t ∧ Spec.Walked va ty (Spec.entry1 va s) pte pa s1 t) ∧
    (pte.extractLsb' 10 10 ≠ 0#10 → translate va ty s = .raise (Spec.pageFaultOf ty) va s1)

/-- Every way a walk fails: which exception, and that it writes nothing (20_memory.md R123, 20_memory.md R124,
20_memory.md R126, 20_memory.md R127). Choices and deductions of the model in it: log entry 6. -/
def Obligations.WalkFaults : Prop :=
  ∀ (s : State) (va : Word) (ty : AccessType), Spec.Walks va ty s →
    let a1 := Spec.entry1 va s
    let s1 := interleave s
    let pte1 := Spec.word4 s1.mem a1.toNat
    let a0 := Spec.entry0 pte1 va
    let s2 := interleave s1
    let pte0 := Spec.word4 s2.mem a0.toNat
    let accessFault := fun u => translate va ty s = .raise (Spec.accessFaultOf ty) va u
    let pageFault := fun u => translate va ty s = .raise (Spec.pageFaultOf ty) va u
    (inRam s.cfg a1 4 = false → accessFault s) ∧
    (inRam s.cfg a1 4 = true → Spec.Invalid pte1 → pageFault s1) ∧
    (inRam s.cfg a1 4 = true → ¬ Spec.Invalid pte1 → Spec.Leaf pte1 →
      ¬ Spec.Allowed pte1 ty s ∨ pte1.extractLsb' 10 10 ≠ 0#10 → pageFault s1) ∧
    (inRam s.cfg a1 4 = true → ¬ Spec.Invalid pte1 → ¬ Spec.Leaf pte1 →
      (inRam s.cfg a0 4 = false → accessFault s1) ∧
      (inRam s.cfg a0 4 = true → Spec.Invalid pte0 ∨ ¬ Spec.Leaf pte0 ∨ ¬ Spec.Allowed pte0 ty s → pageFault s2))

/-- Translation changes at most the A and D bits of the leaf of its own walk and one TLB entry (20_memory.md R120,
20_memory.md R123, 20_memory.md R124, 20_memory.md R128, 20_memory.md R131, 44_a_atomic.md R323). Choices and
deductions of the model in it: log entries 6, 10. -/
def Obligations.TranslationFrame : Prop :=
  ∀ (s : State) (va : Word) (ty : AccessType), s.mem.wf = true →
    let pte1 := Spec.word4 s.mem (Spec.entry1 va s).toNat
    (∀ pa t, translate va ty s = .ok pa t →
      Spec.SameHart s t ∧ Spec.SameRegs s t ∧ t.pc = s.pc ∧
      (∀ i, i ≠ ((va.extractLsb' 12 20).toNat &&& (s.cfg.tlbN - 1)) → sparseGet i t.tlb = sparseGet i s.tlb) ∧
      (s.interleaved = [] → Spec.SameShared s t ∧ t.rsv = s.rsv ∧
        (Spec.SameBytes s t ∨ ∃ a : PhysAddr,
          ((Spec.Leaf pte1 ∧ a = Spec.entry1 va s) ∨ (¬ Spec.Leaf pte1 ∧ a = Spec.entry0 pte1 va)) ∧
          inRam s.cfg a 4 = true ∧
          readByte t.mem a.toNat = readByte s.mem a.toNat ||| (if ty = .store then 0xC0#8 else 0x40#8) ∧
          Spec.SameBytesOutside a.toNat 1 s t))) ∧
    ∀ e tv t, translate va ty s = .raise e tv t →
      tv = va ∧ (e = Spec.pageFaultOf ty ∨ e = Spec.accessFaultOf ty) ∧ Spec.SameHart s t ∧ Spec.SameRegs s t ∧
      t.pc = s.pc ∧ t.tlb = s.tlb ∧ (s.interleaved = [] → t = s)

/-- A turn of the hart is HartStep: its event check takes the first interrupt that fires; without a posted event, or
leaving a WFI, none is made (60_exceptions.md R461, 60_exceptions.md R463, 60_exceptions.md R464, 60_exceptions.md
R465, 60_exceptions.md R470, 60_exceptions.md R450, 60_exceptions.md R472, 46_system_csr.md R407, 00_scope.md R14,
60_exceptions.md R471). Choices and deductions of the model in it: log entries 5, 17. -/
def Obligations.EventCheck : Prop :=
  ∀ s : State,
    (paramsLegal s.cfg = true → s.csr.hartid.toNat < s.cfg.nharts →
      (s.agenda = [] → step s = hartStep s) ∧
      ∀ rest, s.agenda = .hart :: rest → step s = hartStep { s with agenda := rest }) ∧
    (∀ i, s.waitEvent = false → s.evInt = true → s.parked = false → Spec.FirstFiring false i (Spec.folded s) →
      ∃ t, hartStep s = .next t ∧
        Spec.TrapEntry (Spec.interruptLevel i s) (Spec.interruptCause i) 0#32 s.pc
          { Spec.folded s with waitEvent := true } t) ∧
    (¬ (s.parked = true ∧ s.waitEvent = true) → s.waitEvent = true ∨ s.evInt = false ∨ s.parked = true →
      hartStep s = rearmOutcome (runInstruction { s with waitEvent := true, parked := false })) ∧
    (s.parked = true → s.waitEvent = true → hartStep s = .next s)

/-- A woken WFI takes its interrupt with epc after the WFI, even with the global enable set (60_exceptions.md R470,
60_exceptions.md R472, 46_system_csr.md R407, 30_encoding.md R170). Choices and deductions of the model in it: log
entry 6. -/
def Obligations.WokenWaitTakesInterrupt : Prop :=
  ∀ (s s1 : State) (i : Nat), s.parked = true → s.waitEvent = false →
    Spec.Fetches { s with waitEvent := true, parked := false } (Spec.rawBytes (encode .wfi)) s1 →
    Spec.FirstFiring true i (Spec.folded s1) →
    ∃ t, hartStep s = .next t ∧
      Spec.TrapEntry (Spec.interruptLevel i s) (Spec.interruptCause i) 0#32 (s.pc + 4#32) (Spec.folded s1) t

/-- A turn of another agent is its action: what the timer agent, a device and the passing of time change, and what no
other agent changes (60_exceptions.md R462, 60_exceptions.md R466, 60_exceptions.md R480, 60_exceptions.md R481,
60_exceptions.md R483, 10_state.md R72, 20_memory.md R146, 20_memory.md R140, 44_a_atomic.md R323, 00_scope.md
R14, 60_exceptions.md R471). Choices and deductions of the model in it: log entries 4, 5, 6, 7, 8, 13. -/
def Obligations.AgentActions : Prop :=
  ∀ (s : State) (bits : Word) (v : DWord) (n a : Nat) (bytes : List Byte) (action : AgentAction),
    (∀ rest, paramsLegal s.cfg = true → s.csr.hartid.toNat < s.cfg.nharts → s.agenda = .agent action :: rest →
      step s = .next (agentAct { s with agenda := rest } action)) ∧
    agentAct s (.device (.post bits)) =
      { s with evIntMask := s.evIntMask ||| (bits &&& 0xBBB#32), evInt := true, waitEvent := false } ∧
    agentAct s .timer = (if s.timecmp.toNat ≤ s.time.toNat then
      { s with evIntMask := s.evIntMask ||| 0x80#32, evInt := true, waitEvent := false } else s) ∧
    agentAct s (.device (.setTimecmp v)) = { s with timecmp := v, evInt := true, waitEvent := false } ∧
    agentAct s (.timeTo v) = (if s.time.toNat ≤ v.toNat then { s with time := v } else s) ∧
    agentAct s (.deviceState n) = { s with devices := n } ∧
    (let t := agentAct s (.device (.ramWrite a bytes));
      t = { s with mem := t.mem } ∧ (s.mem.wf = true → ∀ b, readByte t.mem b =
        if a ≤ b ∧ b < a + bytes.length ∧ s.cfg.ramBase ≤ b ∧ b < s.cfg.ramBase + s.cfg.ramSize ∧ b < 2 ^ 32
        then bytes.getD (b - a) 0#8 else readByte s.mem b)) ∧
    (∀ t, t = agentAct s action ∨ t = interleave s → Spec.SameHart s t ∧ Spec.SameRegs s t ∧ t.pc = s.pc ∧ t.tlb = s.tlb) ∧
    (s.interleaved = [] → interleave s = s) ∧
    ∀ actions rest, s.interleaved = actions :: rest →
      interleave s = actions.foldl agentAct { s with interleaved := rest }

/-- Another hart's store to the reserved word clears the reservation under RSV_SNOOP (44_a_atomic.md R323,
44_a_atomic.md R324, 20_memory.md R140, 00_scope.md R14, 10_state.md R80). Choices and deductions of the model in
it: log entries 5, 13. -/
def Obligations.OtherHartStores : Prop :=
  ∀ (s : State) (h : Nat) (pa : PhysAddr) (w : Width) (v : Word),
    let t := agentAct s (.otherHartStore h pa w v)
    (s.mem.wf = true → h < s.cfg.nharts → h ≠ s.csr.hartid.toNat → inRam s.cfg pa w.bytes = true →
      (∀ k < w.bytes, readByte t.mem (pa.toNat + k) = Spec.byteOf v k) ∧ Spec.SameBytesOutside pa.toNat w.bytes s t ∧
      (s.cfg.rsvSnoop = true → Spec.StoreKeepsReservation pa w.bytes s t) ∧ (s.cfg.rsvSnoop = false → t.rsv = s.rsv) ∧
      Spec.SameControl s t ∧ Spec.SameRegs s t ∧ t.pc = s.pc ∧ t.tlb = s.tlb) ∧
    (s.cfg.nharts ≤ h ∨ h = s.csr.hartid.toNat ∨ inRam s.cfg pa w.bytes = false → t = s)
end

