-- ==== Sys2Proof/Laws/State.lean ====
section
/-! SUPPORT. What each named update does to each field of State: one lemma per field, so that no later proof unfolds
a record update. -/

namespace Sys2Proof.Machine

/-! ## A register write -/

@[simp] theorem writeReg_pc (r : Reg) (v : Word) (s : State) : (writeReg r v s).pc = s.pc := by unfold writeReg; split <;> rfl
@[simp] theorem writeReg_priv (r : Reg) (v : Word) (s : State) : (writeReg r v s).priv = s.priv := by unfold writeReg; split <;> rfl
@[simp] theorem writeReg_csr (r : Reg) (v : Word) (s : State) : (writeReg r v s).csr = s.csr := by unfold writeReg; split <;> rfl
@[simp] theorem writeReg_tlb (r : Reg) (v : Word) (s : State) : (writeReg r v s).tlb = s.tlb := by unfold writeReg; split <;> rfl
@[simp] theorem writeReg_time (r : Reg) (v : Word) (s : State) : (writeReg r v s).time = s.time := by unfold writeReg; split <;> rfl
@[simp] theorem writeReg_timecmp (r : Reg) (v : Word) (s : State) : (writeReg r v s).timecmp = s.timecmp := by unfold writeReg; split <;> rfl
@[simp] theorem writeReg_waitEvent (r : Reg) (v : Word) (s : State) : (writeReg r v s).waitEvent = s.waitEvent := by unfold writeReg; split <;> rfl
@[simp] theorem writeReg_evTrap (r : Reg) (v : Word) (s : State) : (writeReg r v s).evTrap = s.evTrap := by unfold writeReg; split <;> rfl
@[simp] theorem writeReg_evInt (r : Reg) (v : Word) (s : State) : (writeReg r v s).evInt = s.evInt := by unfold writeReg; split <;> rfl
@[simp] theorem writeReg_evIntMask (r : Reg) (v : Word) (s : State) : (writeReg r v s).evIntMask = s.evIntMask := by unfold writeReg; split <;> rfl
@[simp] theorem writeReg_parked (r : Reg) (v : Word) (s : State) : (writeReg r v s).parked = s.parked := by unfold writeReg; split <;> rfl
@[simp] theorem writeReg_rsv (r : Reg) (v : Word) (s : State) : (writeReg r v s).rsv = s.rsv := by unfold writeReg; split <;> rfl
@[simp] theorem writeReg_mem (r : Reg) (v : Word) (s : State) : (writeReg r v s).mem = s.mem := by unfold writeReg; split <;> rfl
@[simp] theorem writeReg_cfg (r : Reg) (v : Word) (s : State) : (writeReg r v s).cfg = s.cfg := by unfold writeReg; split <;> rfl
@[simp] theorem writeReg_devices (r : Reg) (v : Word) (s : State) : (writeReg r v s).devices = s.devices := by unfold writeReg; split <;> rfl
@[simp] theorem writeReg_mmioLog (r : Reg) (v : Word) (s : State) : (writeReg r v s).mmioLog = s.mmioLog := by unfold writeReg; split <;> rfl
@[simp] theorem writeReg_agenda (r : Reg) (v : Word) (s : State) : (writeReg r v s).agenda = s.agenda := by unfold writeReg; split <;> rfl
@[simp] theorem writeReg_interleaved (r : Reg) (v : Word) (s : State) : (writeReg r v s).interleaved = s.interleaved := by unfold writeReg; split <;> rfl

/-! ## The next instruction -/

@[simp] theorem advance_regs (len : Word) (s : State) : (advance len s).regs = s.regs := rfl
@[simp] theorem advance_pc (len : Word) (s : State) : (advance len s).pc = s.pc + len := rfl
@[simp] theorem advance_priv (len : Word) (s : State) : (advance len s).priv = s.priv := rfl
@[simp] theorem advance_csr (len : Word) (s : State) : (advance len s).csr = s.csr := rfl
@[simp] theorem advance_tlb (len : Word) (s : State) : (advance len s).tlb = s.tlb := rfl
@[simp] theorem advance_time (len : Word) (s : State) : (advance len s).time = s.time := rfl
@[simp] theorem advance_timecmp (len : Word) (s : State) : (advance len s).timecmp = s.timecmp := rfl
@[simp] theorem advance_waitEvent (len : Word) (s : State) : (advance len s).waitEvent = s.waitEvent := rfl
@[simp] theorem advance_evTrap (len : Word) (s : State) : (advance len s).evTrap = s.evTrap := rfl
@[simp] theorem advance_evInt (len : Word) (s : State) : (advance len s).evInt = s.evInt := rfl
@[simp] theorem advance_evIntMask (len : Word) (s : State) : (advance len s).evIntMask = s.evIntMask := rfl
@[simp] theorem advance_parked (len : Word) (s : State) : (advance len s).parked = s.parked := rfl
@[simp] theorem advance_rsv (len : Word) (s : State) : (advance len s).rsv = s.rsv := rfl
@[simp] theorem advance_mem (len : Word) (s : State) : (advance len s).mem = s.mem := rfl
@[simp] theorem advance_cfg (len : Word) (s : State) : (advance len s).cfg = s.cfg := rfl
@[simp] theorem advance_devices (len : Word) (s : State) : (advance len s).devices = s.devices := rfl
@[simp] theorem advance_mmioLog (len : Word) (s : State) : (advance len s).mmioLog = s.mmioLog := rfl
@[simp] theorem advance_agenda (len : Word) (s : State) : (advance len s).agenda = s.agenda := rfl
@[simp] theorem advance_interleaved (len : Word) (s : State) : (advance len s).interleaved = s.interleaved := rfl

/-! ## A jump -/

@[simp] theorem setPc_regs (target : Word) (s : State) : (setPc target s).regs = s.regs := rfl
@[simp] theorem setPc_pc (target : Word) (s : State) : (setPc target s).pc = target := rfl
@[simp] theorem setPc_priv (target : Word) (s : State) : (setPc target s).priv = s.priv := rfl
@[simp] theorem setPc_csr (target : Word) (s : State) : (setPc target s).csr = s.csr := rfl
@[simp] theorem setPc_tlb (target : Word) (s : State) : (setPc target s).tlb = s.tlb := rfl
@[simp] theorem setPc_time (target : Word) (s : State) : (setPc target s).time = s.time := rfl
@[simp] theorem setPc_timecmp (target : Word) (s : State) : (setPc target s).timecmp = s.timecmp := rfl
@[simp] theorem setPc_waitEvent (target : Word) (s : State) : (setPc target s).waitEvent = s.waitEvent := rfl
@[simp] theorem setPc_evTrap (target : Word) (s : State) : (setPc target s).evTrap = s.evTrap := rfl
@[simp] theorem setPc_evInt (target : Word) (s : State) : (setPc target s).evInt = s.evInt := rfl
@[simp] theorem setPc_evIntMask (target : Word) (s : State) : (setPc target s).evIntMask = s.evIntMask := rfl
@[simp] theorem setPc_parked (target : Word) (s : State) : (setPc target s).parked = s.parked := rfl
@[simp] theorem setPc_rsv (target : Word) (s : State) : (setPc target s).rsv = s.rsv := rfl
@[simp] theorem setPc_mem (target : Word) (s : State) : (setPc target s).mem = s.mem := rfl
@[simp] theorem setPc_cfg (target : Word) (s : State) : (setPc target s).cfg = s.cfg := rfl
@[simp] theorem setPc_devices (target : Word) (s : State) : (setPc target s).devices = s.devices := rfl
@[simp] theorem setPc_mmioLog (target : Word) (s : State) : (setPc target s).mmioLog = s.mmioLog := rfl
@[simp] theorem setPc_agenda (target : Word) (s : State) : (setPc target s).agenda = s.agenda := rfl
@[simp] theorem setPc_interleaved (target : Word) (s : State) : (setPc target s).interleaved = s.interleaved := rfl

/-! ## The self-signal -/

@[simp] theorem selfSignal_regs (s : State) : (selfSignal s).regs = s.regs := rfl
@[simp] theorem selfSignal_pc (s : State) : (selfSignal s).pc = s.pc := rfl
@[simp] theorem selfSignal_priv (s : State) : (selfSignal s).priv = s.priv := rfl
@[simp] theorem selfSignal_csr (s : State) : (selfSignal s).csr = s.csr := rfl
@[simp] theorem selfSignal_tlb (s : State) : (selfSignal s).tlb = s.tlb := rfl
@[simp] theorem selfSignal_time (s : State) : (selfSignal s).time = s.time := rfl
@[simp] theorem selfSignal_timecmp (s : State) : (selfSignal s).timecmp = s.timecmp := rfl
@[simp] theorem selfSignal_waitEvent (s : State) : (selfSignal s).waitEvent = false := rfl
@[simp] theorem selfSignal_evTrap (s : State) : (selfSignal s).evTrap = s.evTrap := rfl
@[simp] theorem selfSignal_evInt (s : State) : (selfSignal s).evInt = true := rfl
@[simp] theorem selfSignal_evIntMask (s : State) : (selfSignal s).evIntMask = s.evIntMask := rfl
@[simp] theorem selfSignal_parked (s : State) : (selfSignal s).parked = s.parked := rfl
@[simp] theorem selfSignal_rsv (s : State) : (selfSignal s).rsv = s.rsv := rfl
@[simp] theorem selfSignal_mem (s : State) : (selfSignal s).mem = s.mem := rfl
@[simp] theorem selfSignal_cfg (s : State) : (selfSignal s).cfg = s.cfg := rfl
@[simp] theorem selfSignal_devices (s : State) : (selfSignal s).devices = s.devices := rfl
@[simp] theorem selfSignal_mmioLog (s : State) : (selfSignal s).mmioLog = s.mmioLog := rfl
@[simp] theorem selfSignal_agenda (s : State) : (selfSignal s).agenda = s.agenda := rfl
@[simp] theorem selfSignal_interleaved (s : State) : (selfSignal s).interleaved = s.interleaved := rfl

/-! ## A post -/

@[simp] theorem post_regs (bits : Word) (s : State) : (post bits s).regs = s.regs := rfl
@[simp] theorem post_pc (bits : Word) (s : State) : (post bits s).pc = s.pc := rfl
@[simp] theorem post_priv (bits : Word) (s : State) : (post bits s).priv = s.priv := rfl
@[simp] theorem post_csr (bits : Word) (s : State) : (post bits s).csr = s.csr := rfl
@[simp] theorem post_tlb (bits : Word) (s : State) : (post bits s).tlb = s.tlb := rfl
@[simp] theorem post_time (bits : Word) (s : State) : (post bits s).time = s.time := rfl
@[simp] theorem post_timecmp (bits : Word) (s : State) : (post bits s).timecmp = s.timecmp := rfl
@[simp] theorem post_waitEvent (bits : Word) (s : State) : (post bits s).waitEvent = false := rfl
@[simp] theorem post_evTrap (bits : Word) (s : State) : (post bits s).evTrap = s.evTrap := rfl
@[simp] theorem post_evInt (bits : Word) (s : State) : (post bits s).evInt = true := rfl
@[simp] theorem post_evIntMask (bits : Word) (s : State) : (post bits s).evIntMask = s.evIntMask ||| (bits &&& interruptMask) := rfl
@[simp] theorem post_parked (bits : Word) (s : State) : (post bits s).parked = s.parked := rfl
@[simp] theorem post_rsv (bits : Word) (s : State) : (post bits s).rsv = s.rsv := rfl
@[simp] theorem post_mem (bits : Word) (s : State) : (post bits s).mem = s.mem := rfl
@[simp] theorem post_cfg (bits : Word) (s : State) : (post bits s).cfg = s.cfg := rfl
@[simp] theorem post_devices (bits : Word) (s : State) : (post bits s).devices = s.devices := rfl
@[simp] theorem post_mmioLog (bits : Word) (s : State) : (post bits s).mmioLog = s.mmioLog := rfl
@[simp] theorem post_agenda (bits : Word) (s : State) : (post bits s).agenda = s.agenda := rfl
@[simp] theorem post_interleaved (bits : Word) (s : State) : (post bits s).interleaved = s.interleaved := rfl

/-! ## The timer-compare port -/

@[simp] theorem setTimecmp_regs (v : DWord) (s : State) : (setTimecmp v s).regs = s.regs := rfl
@[simp] theorem setTimecmp_pc (v : DWord) (s : State) : (setTimecmp v s).pc = s.pc := rfl
@[simp] theorem setTimecmp_priv (v : DWord) (s : State) : (setTimecmp v s).priv = s.priv := rfl
@[simp] theorem setTimecmp_csr (v : DWord) (s : State) : (setTimecmp v s).csr = s.csr := rfl
@[simp] theorem setTimecmp_tlb (v : DWord) (s : State) : (setTimecmp v s).tlb = s.tlb := rfl
@[simp] theorem setTimecmp_time (v : DWord) (s : State) : (setTimecmp v s).time = s.time := rfl
@[simp] theorem setTimecmp_timecmp (v : DWord) (s : State) : (setTimecmp v s).timecmp = v := rfl
@[simp] theorem setTimecmp_waitEvent (v : DWord) (s : State) : (setTimecmp v s).waitEvent = false := rfl
@[simp] theorem setTimecmp_evTrap (v : DWord) (s : State) : (setTimecmp v s).evTrap = s.evTrap := rfl
@[simp] theorem setTimecmp_evInt (v : DWord) (s : State) : (setTimecmp v s).evInt = true := rfl
@[simp] theorem setTimecmp_evIntMask (v : DWord) (s : State) : (setTimecmp v s).evIntMask = s.evIntMask := rfl
@[simp] theorem setTimecmp_parked (v : DWord) (s : State) : (setTimecmp v s).parked = s.parked := rfl
@[simp] theorem setTimecmp_rsv (v : DWord) (s : State) : (setTimecmp v s).rsv = s.rsv := rfl
@[simp] theorem setTimecmp_mem (v : DWord) (s : State) : (setTimecmp v s).mem = s.mem := rfl
@[simp] theorem setTimecmp_cfg (v : DWord) (s : State) : (setTimecmp v s).cfg = s.cfg := rfl
@[simp] theorem setTimecmp_devices (v : DWord) (s : State) : (setTimecmp v s).devices = s.devices := rfl
@[simp] theorem setTimecmp_mmioLog (v : DWord) (s : State) : (setTimecmp v s).mmioLog = s.mmioLog := rfl
@[simp] theorem setTimecmp_agenda (v : DWord) (s : State) : (setTimecmp v s).agenda = s.agenda := rfl
@[simp] theorem setTimecmp_interleaved (v : DWord) (s : State) : (setTimecmp v s).interleaved = s.interleaved := rfl

/-! ## A TLB flush -/

@[simp] theorem flushTlb_regs (s : State) : (flushTlb s).regs = s.regs := rfl
@[simp] theorem flushTlb_pc (s : State) : (flushTlb s).pc = s.pc := rfl
@[simp] theorem flushTlb_priv (s : State) : (flushTlb s).priv = s.priv := rfl
@[simp] theorem flushTlb_csr (s : State) : (flushTlb s).csr = s.csr := rfl
@[simp] theorem flushTlb_tlb (s : State) : (flushTlb s).tlb = [] := rfl
@[simp] theorem flushTlb_time (s : State) : (flushTlb s).time = s.time := rfl
@[simp] theorem flushTlb_timecmp (s : State) : (flushTlb s).timecmp = s.timecmp := rfl
@[simp] theorem flushTlb_waitEvent (s : State) : (flushTlb s).waitEvent = s.waitEvent := rfl
@[simp] theorem flushTlb_evTrap (s : State) : (flushTlb s).evTrap = s.evTrap := rfl
@[simp] theorem flushTlb_evInt (s : State) : (flushTlb s).evInt = s.evInt := rfl
@[simp] theorem flushTlb_evIntMask (s : State) : (flushTlb s).evIntMask = s.evIntMask := rfl
@[simp] theorem flushTlb_parked (s : State) : (flushTlb s).parked = s.parked := rfl
@[simp] theorem flushTlb_rsv (s : State) : (flushTlb s).rsv = s.rsv := rfl
@[simp] theorem flushTlb_mem (s : State) : (flushTlb s).mem = s.mem := rfl
@[simp] theorem flushTlb_cfg (s : State) : (flushTlb s).cfg = s.cfg := rfl
@[simp] theorem flushTlb_devices (s : State) : (flushTlb s).devices = s.devices := rfl
@[simp] theorem flushTlb_mmioLog (s : State) : (flushTlb s).mmioLog = s.mmioLog := rfl
@[simp] theorem flushTlb_agenda (s : State) : (flushTlb s).agenda = s.agenda := rfl
@[simp] theorem flushTlb_interleaved (s : State) : (flushTlb s).interleaved = s.interleaved := rfl

/-! ## The context flush -/

@[simp] theorem contextFlush_regs (c : TranslationContext) (s : State) : (contextFlush c s).regs = s.regs := by unfold contextFlush; split <;> rfl
@[simp] theorem contextFlush_pc (c : TranslationContext) (s : State) : (contextFlush c s).pc = s.pc := by unfold contextFlush; split <;> rfl
@[simp] theorem contextFlush_priv (c : TranslationContext) (s : State) : (contextFlush c s).priv = s.priv := by unfold contextFlush; split <;> rfl
@[simp] theorem contextFlush_csr (c : TranslationContext) (s : State) : (contextFlush c s).csr = s.csr := by unfold contextFlush; split <;> rfl
@[simp] theorem contextFlush_tlb (c : TranslationContext) (s : State) : (contextFlush c s).tlb = if translationContext s = c then s.tlb else [] := by unfold contextFlush; split <;> rfl
@[simp] theorem contextFlush_time (c : TranslationContext) (s : State) : (contextFlush c s).time = s.time := by unfold contextFlush; split <;> rfl
@[simp] theorem contextFlush_timecmp (c : TranslationContext) (s : State) : (contextFlush c s).timecmp = s.timecmp := by unfold contextFlush; split <;> rfl
@[simp] theorem contextFlush_waitEvent (c : TranslationContext) (s : State) : (contextFlush c s).waitEvent = s.waitEvent := by unfold contextFlush; split <;> rfl
@[simp] theorem contextFlush_evTrap (c : TranslationContext) (s : State) : (contextFlush c s).evTrap = s.evTrap := by unfold contextFlush; split <;> rfl
@[simp] theorem contextFlush_evInt (c : TranslationContext) (s : State) : (contextFlush c s).evInt = s.evInt := by unfold contextFlush; split <;> rfl
@[simp] theorem contextFlush_evIntMask (c : TranslationContext) (s : State) : (contextFlush c s).evIntMask = s.evIntMask := by unfold contextFlush; split <;> rfl
@[simp] theorem contextFlush_parked (c : TranslationContext) (s : State) : (contextFlush c s).parked = s.parked := by unfold contextFlush; split <;> rfl
@[simp] theorem contextFlush_rsv (c : TranslationContext) (s : State) : (contextFlush c s).rsv = s.rsv := by unfold contextFlush; split <;> rfl
@[simp] theorem contextFlush_mem (c : TranslationContext) (s : State) : (contextFlush c s).mem = s.mem := by unfold contextFlush; split <;> rfl
@[simp] theorem contextFlush_cfg (c : TranslationContext) (s : State) : (contextFlush c s).cfg = s.cfg := by unfold contextFlush; split <;> rfl
@[simp] theorem contextFlush_devices (c : TranslationContext) (s : State) : (contextFlush c s).devices = s.devices := by unfold contextFlush; split <;> rfl
@[simp] theorem contextFlush_mmioLog (c : TranslationContext) (s : State) : (contextFlush c s).mmioLog = s.mmioLog := by unfold contextFlush; split <;> rfl
@[simp] theorem contextFlush_agenda (c : TranslationContext) (s : State) : (contextFlush c s).agenda = s.agenda := by unfold contextFlush; split <;> rfl
@[simp] theorem contextFlush_interleaved (c : TranslationContext) (s : State) : (contextFlush c s).interleaved = s.interleaved := by unfold contextFlush; split <;> rfl

/-! ## The store path check -/

@[simp] theorem reservationStoreCheck_regs (pa : PhysAddr) (n : Nat) (s : State) : (reservationStoreCheck pa n s).regs = s.regs := by unfold reservationStoreCheck; split <;> rfl
@[simp] theorem reservationStoreCheck_pc (pa : PhysAddr) (n : Nat) (s : State) : (reservationStoreCheck pa n s).pc = s.pc := by unfold reservationStoreCheck; split <;> rfl
@[simp] theorem reservationStoreCheck_priv (pa : PhysAddr) (n : Nat) (s : State) : (reservationStoreCheck pa n s).priv = s.priv := by unfold reservationStoreCheck; split <;> rfl
@[simp] theorem reservationStoreCheck_csr (pa : PhysAddr) (n : Nat) (s : State) : (reservationStoreCheck pa n s).csr = s.csr := by unfold reservationStoreCheck; split <;> rfl
@[simp] theorem reservationStoreCheck_tlb (pa : PhysAddr) (n : Nat) (s : State) : (reservationStoreCheck pa n s).tlb = s.tlb := by unfold reservationStoreCheck; split <;> rfl
@[simp] theorem reservationStoreCheck_time (pa : PhysAddr) (n : Nat) (s : State) : (reservationStoreCheck pa n s).time = s.time := by unfold reservationStoreCheck; split <;> rfl
@[simp] theorem reservationStoreCheck_timecmp (pa : PhysAddr) (n : Nat) (s : State) : (reservationStoreCheck pa n s).timecmp = s.timecmp := by unfold reservationStoreCheck; split <;> rfl
@[simp] theorem reservationStoreCheck_waitEvent (pa : PhysAddr) (n : Nat) (s : State) : (reservationStoreCheck pa n s).waitEvent = s.waitEvent := by unfold reservationStoreCheck; split <;> rfl
@[simp] theorem reservationStoreCheck_evTrap (pa : PhysAddr) (n : Nat) (s : State) : (reservationStoreCheck pa n s).evTrap = s.evTrap := by unfold reservationStoreCheck; split <;> rfl
@[simp] theorem reservationStoreCheck_evInt (pa : PhysAddr) (n : Nat) (s : State) : (reservationStoreCheck pa n s).evInt = s.evInt := by unfold reservationStoreCheck; split <;> rfl
@[simp] theorem reservationStoreCheck_evIntMask (pa : PhysAddr) (n : Nat) (s : State) : (reservationStoreCheck pa n s).evIntMask = s.evIntMask := by unfold reservationStoreCheck; split <;> rfl
@[simp] theorem reservationStoreCheck_parked (pa : PhysAddr) (n : Nat) (s : State) : (reservationStoreCheck pa n s).parked = s.parked := by unfold reservationStoreCheck; split <;> rfl
@[simp] theorem reservationStoreCheck_rsv (pa : PhysAddr) (n : Nat) (s : State) : (reservationStoreCheck pa n s).rsv = if reservationHit s.rsv pa n then none else s.rsv := by unfold reservationStoreCheck; split <;> rfl
@[simp] theorem reservationStoreCheck_mem (pa : PhysAddr) (n : Nat) (s : State) : (reservationStoreCheck pa n s).mem = s.mem := by unfold reservationStoreCheck; split <;> rfl
@[simp] theorem reservationStoreCheck_cfg (pa : PhysAddr) (n : Nat) (s : State) : (reservationStoreCheck pa n s).cfg = s.cfg := by unfold reservationStoreCheck; split <;> rfl
@[simp] theorem reservationStoreCheck_devices (pa : PhysAddr) (n : Nat) (s : State) : (reservationStoreCheck pa n s).devices = s.devices := by unfold reservationStoreCheck; split <;> rfl
@[simp] theorem reservationStoreCheck_mmioLog (pa : PhysAddr) (n : Nat) (s : State) : (reservationStoreCheck pa n s).mmioLog = s.mmioLog := by unfold reservationStoreCheck; split <;> rfl
@[simp] theorem reservationStoreCheck_agenda (pa : PhysAddr) (n : Nat) (s : State) : (reservationStoreCheck pa n s).agenda = s.agenda := by unfold reservationStoreCheck; split <;> rfl
@[simp] theorem reservationStoreCheck_interleaved (pa : PhysAddr) (n : Nat) (s : State) : (reservationStoreCheck pa n s).interleaved = s.interleaved := by unfold reservationStoreCheck; split <;> rfl

/-! ## A write to RAM -/

@[simp] theorem ramWrite_regs (pa : PhysAddr) (n : Nat) (v : Word) (s : State) : (ramWrite pa n v s).regs = s.regs := by simp [ramWrite]
@[simp] theorem ramWrite_pc (pa : PhysAddr) (n : Nat) (v : Word) (s : State) : (ramWrite pa n v s).pc = s.pc := by simp [ramWrite]
@[simp] theorem ramWrite_priv (pa : PhysAddr) (n : Nat) (v : Word) (s : State) : (ramWrite pa n v s).priv = s.priv := by simp [ramWrite]
@[simp] theorem ramWrite_csr (pa : PhysAddr) (n : Nat) (v : Word) (s : State) : (ramWrite pa n v s).csr = s.csr := by simp [ramWrite]
@[simp] theorem ramWrite_tlb (pa : PhysAddr) (n : Nat) (v : Word) (s : State) : (ramWrite pa n v s).tlb = s.tlb := by simp [ramWrite]
@[simp] theorem ramWrite_time (pa : PhysAddr) (n : Nat) (v : Word) (s : State) : (ramWrite pa n v s).time = s.time := by simp [ramWrite]
@[simp] theorem ramWrite_timecmp (pa : PhysAddr) (n : Nat) (v : Word) (s : State) : (ramWrite pa n v s).timecmp = s.timecmp := by simp [ramWrite]
@[simp] theorem ramWrite_waitEvent (pa : PhysAddr) (n : Nat) (v : Word) (s : State) : (ramWrite pa n v s).waitEvent = s.waitEvent := by simp [ramWrite]
@[simp] theorem ramWrite_evTrap (pa : PhysAddr) (n : Nat) (v : Word) (s : State) : (ramWrite pa n v s).evTrap = s.evTrap := by simp [ramWrite]
@[simp] theorem ramWrite_evInt (pa : PhysAddr) (n : Nat) (v : Word) (s : State) : (ramWrite pa n v s).evInt = s.evInt := by simp [ramWrite]
@[simp] theorem ramWrite_evIntMask (pa : PhysAddr) (n : Nat) (v : Word) (s : State) : (ramWrite pa n v s).evIntMask = s.evIntMask := by simp [ramWrite]
@[simp] theorem ramWrite_parked (pa : PhysAddr) (n : Nat) (v : Word) (s : State) : (ramWrite pa n v s).parked = s.parked := by simp [ramWrite]
@[simp] theorem ramWrite_rsv (pa : PhysAddr) (n : Nat) (v : Word) (s : State) : (ramWrite pa n v s).rsv = if reservationHit s.rsv pa n then none else s.rsv := by simp [ramWrite]
@[simp] theorem ramWrite_mem (pa : PhysAddr) (n : Nat) (v : Word) (s : State) : (ramWrite pa n v s).mem = writeBytes pa.toNat v s.mem n := by simp [ramWrite]
@[simp] theorem ramWrite_cfg (pa : PhysAddr) (n : Nat) (v : Word) (s : State) : (ramWrite pa n v s).cfg = s.cfg := by simp [ramWrite]
@[simp] theorem ramWrite_devices (pa : PhysAddr) (n : Nat) (v : Word) (s : State) : (ramWrite pa n v s).devices = s.devices := by simp [ramWrite]
@[simp] theorem ramWrite_mmioLog (pa : PhysAddr) (n : Nat) (v : Word) (s : State) : (ramWrite pa n v s).mmioLog = s.mmioLog := by simp [ramWrite]
@[simp] theorem ramWrite_agenda (pa : PhysAddr) (n : Nat) (v : Word) (s : State) : (ramWrite pa n v s).agenda = s.agenda := by simp [ramWrite]
@[simp] theorem ramWrite_interleaved (pa : PhysAddr) (n : Nat) (v : Word) (s : State) : (ramWrite pa n v s).interleaved = s.interleaved := by simp [ramWrite]

/-! ## A TLB fill -/

@[simp] theorem tlbFill_regs (va : Word) (t : AccessType) (pa : PhysAddr) (s : State) : (tlbFill va t pa s).regs = s.regs := by unfold tlbFill; split <;> rfl
@[simp] theorem tlbFill_pc (va : Word) (t : AccessType) (pa : PhysAddr) (s : State) : (tlbFill va t pa s).pc = s.pc := by unfold tlbFill; split <;> rfl
@[simp] theorem tlbFill_priv (va : Word) (t : AccessType) (pa : PhysAddr) (s : State) : (tlbFill va t pa s).priv = s.priv := by unfold tlbFill; split <;> rfl
@[simp] theorem tlbFill_csr (va : Word) (t : AccessType) (pa : PhysAddr) (s : State) : (tlbFill va t pa s).csr = s.csr := by unfold tlbFill; split <;> rfl
@[simp] theorem tlbFill_time (va : Word) (t : AccessType) (pa : PhysAddr) (s : State) : (tlbFill va t pa s).time = s.time := by unfold tlbFill; split <;> rfl
@[simp] theorem tlbFill_timecmp (va : Word) (t : AccessType) (pa : PhysAddr) (s : State) : (tlbFill va t pa s).timecmp = s.timecmp := by unfold tlbFill; split <;> rfl
@[simp] theorem tlbFill_waitEvent (va : Word) (t : AccessType) (pa : PhysAddr) (s : State) : (tlbFill va t pa s).waitEvent = s.waitEvent := by unfold tlbFill; split <;> rfl
@[simp] theorem tlbFill_evTrap (va : Word) (t : AccessType) (pa : PhysAddr) (s : State) : (tlbFill va t pa s).evTrap = s.evTrap := by unfold tlbFill; split <;> rfl
@[simp] theorem tlbFill_evInt (va : Word) (t : AccessType) (pa : PhysAddr) (s : State) : (tlbFill va t pa s).evInt = s.evInt := by unfold tlbFill; split <;> rfl
@[simp] theorem tlbFill_evIntMask (va : Word) (t : AccessType) (pa : PhysAddr) (s : State) : (tlbFill va t pa s).evIntMask = s.evIntMask := by unfold tlbFill; split <;> rfl
@[simp] theorem tlbFill_parked (va : Word) (t : AccessType) (pa : PhysAddr) (s : State) : (tlbFill va t pa s).parked = s.parked := by unfold tlbFill; split <;> rfl
@[simp] theorem tlbFill_rsv (va : Word) (t : AccessType) (pa : PhysAddr) (s : State) : (tlbFill va t pa s).rsv = s.rsv := by unfold tlbFill; split <;> rfl
@[simp] theorem tlbFill_mem (va : Word) (t : AccessType) (pa : PhysAddr) (s : State) : (tlbFill va t pa s).mem = s.mem := by unfold tlbFill; split <;> rfl
@[simp] theorem tlbFill_cfg (va : Word) (t : AccessType) (pa : PhysAddr) (s : State) : (tlbFill va t pa s).cfg = s.cfg := by unfold tlbFill; split <;> rfl
@[simp] theorem tlbFill_devices (va : Word) (t : AccessType) (pa : PhysAddr) (s : State) : (tlbFill va t pa s).devices = s.devices := by unfold tlbFill; split <;> rfl
@[simp] theorem tlbFill_mmioLog (va : Word) (t : AccessType) (pa : PhysAddr) (s : State) : (tlbFill va t pa s).mmioLog = s.mmioLog := by unfold tlbFill; split <;> rfl
@[simp] theorem tlbFill_agenda (va : Word) (t : AccessType) (pa : PhysAddr) (s : State) : (tlbFill va t pa s).agenda = s.agenda := by unfold tlbFill; split <;> rfl
@[simp] theorem tlbFill_interleaved (va : Word) (t : AccessType) (pa : PhysAddr) (s : State) : (tlbFill va t pa s).interleaved = s.interleaved := by unfold tlbFill; split <;> rfl

/-! ## The A and D bits -/

@[simp] theorem orAD_regs (a : PhysAddr) (t : AccessType) (s : State) : (orAD a t s).regs = s.regs := rfl
@[simp] theorem orAD_pc (a : PhysAddr) (t : AccessType) (s : State) : (orAD a t s).pc = s.pc := rfl
@[simp] theorem orAD_priv (a : PhysAddr) (t : AccessType) (s : State) : (orAD a t s).priv = s.priv := rfl
@[simp] theorem orAD_csr (a : PhysAddr) (t : AccessType) (s : State) : (orAD a t s).csr = s.csr := rfl
@[simp] theorem orAD_tlb (a : PhysAddr) (t : AccessType) (s : State) : (orAD a t s).tlb = s.tlb := rfl
@[simp] theorem orAD_time (a : PhysAddr) (t : AccessType) (s : State) : (orAD a t s).time = s.time := rfl
@[simp] theorem orAD_timecmp (a : PhysAddr) (t : AccessType) (s : State) : (orAD a t s).timecmp = s.timecmp := rfl
@[simp] theorem orAD_waitEvent (a : PhysAddr) (t : AccessType) (s : State) : (orAD a t s).waitEvent = s.waitEvent := rfl
@[simp] theorem orAD_evTrap (a : PhysAddr) (t : AccessType) (s : State) : (orAD a t s).evTrap = s.evTrap := rfl
@[simp] theorem orAD_evInt (a : PhysAddr) (t : AccessType) (s : State) : (orAD a t s).evInt = s.evInt := rfl
@[simp] theorem orAD_evIntMask (a : PhysAddr) (t : AccessType) (s : State) : (orAD a t s).evIntMask = s.evIntMask := rfl
@[simp] theorem orAD_parked (a : PhysAddr) (t : AccessType) (s : State) : (orAD a t s).parked = s.parked := rfl
@[simp] theorem orAD_rsv (a : PhysAddr) (t : AccessType) (s : State) : (orAD a t s).rsv = s.rsv := rfl
@[simp] theorem orAD_cfg (a : PhysAddr) (t : AccessType) (s : State) : (orAD a t s).cfg = s.cfg := rfl
@[simp] theorem orAD_devices (a : PhysAddr) (t : AccessType) (s : State) : (orAD a t s).devices = s.devices := rfl
@[simp] theorem orAD_mmioLog (a : PhysAddr) (t : AccessType) (s : State) : (orAD a t s).mmioLog = s.mmioLog := rfl
@[simp] theorem orAD_agenda (a : PhysAddr) (t : AccessType) (s : State) : (orAD a t s).agenda = s.agenda := rfl
@[simp] theorem orAD_interleaved (a : PhysAddr) (t : AccessType) (s : State) : (orAD a t s).interleaved = s.interleaved := rfl

/-! ## The other agents

No action of another agent changes a register, pc, the mode, a CSR, the TLB, the parameters, `parked`, `ev_trap`, the
record of MMIO accesses, or the schedule (R14). -/

/-- What no action of a list changes, the list does not change. -/
theorem foldl_agentAct_keeps {β : Type} (f : State → β) (h : ∀ s a, f (agentAct s a) = f s) (l : List AgentAction)
    (s : State) : f (l.foldl agentAct s) = f s := by
  induction l generalizing s with
  | nil => rfl
  | cons a rest ih => rw [List.foldl_cons, ih, h]

/-- The same of a device's actions. -/
theorem foldl_deviceAct_keeps {β : Type} (f : State → β) (h : ∀ s a, f (deviceAct s a) = f s)
    (l : List Config.DeviceAction) (s : State) : f (l.foldl deviceAct s) = f s := by
  induction l generalizing s with
  | nil => rfl
  | cons a rest ih => rw [List.foldl_cons, ih, h]

@[simp] theorem deviceAct_regs (s : State) (a : Config.DeviceAction) : (deviceAct s a).regs = s.regs := by cases a <;> rfl
@[simp] theorem deviceAct_pc (s : State) (a : Config.DeviceAction) : (deviceAct s a).pc = s.pc := by cases a <;> rfl
@[simp] theorem deviceAct_priv (s : State) (a : Config.DeviceAction) : (deviceAct s a).priv = s.priv := by cases a <;> rfl
@[simp] theorem deviceAct_csr (s : State) (a : Config.DeviceAction) : (deviceAct s a).csr = s.csr := by cases a <;> rfl
@[simp] theorem deviceAct_tlb (s : State) (a : Config.DeviceAction) : (deviceAct s a).tlb = s.tlb := by cases a <;> rfl
@[simp] theorem deviceAct_cfg (s : State) (a : Config.DeviceAction) : (deviceAct s a).cfg = s.cfg := by cases a <;> rfl
@[simp] theorem deviceAct_parked (s : State) (a : Config.DeviceAction) : (deviceAct s a).parked = s.parked := by cases a <;> rfl
@[simp] theorem deviceAct_evTrap (s : State) (a : Config.DeviceAction) : (deviceAct s a).evTrap = s.evTrap := by cases a <;> rfl
@[simp] theorem deviceAct_mmioLog (s : State) (a : Config.DeviceAction) : (deviceAct s a).mmioLog = s.mmioLog := by cases a <;> rfl
@[simp] theorem deviceAct_agenda (s : State) (a : Config.DeviceAction) : (deviceAct s a).agenda = s.agenda := by cases a <;> rfl
@[simp] theorem deviceAct_interleaved (s : State) (a : Config.DeviceAction) : (deviceAct s a).interleaved = s.interleaved := by cases a <;> rfl
@[simp] theorem deviceAct_rsv (s : State) (a : Config.DeviceAction) : (deviceAct s a).rsv = s.rsv := by cases a <;> rfl
@[simp] theorem deviceAct_devices (s : State) (a : Config.DeviceAction) : (deviceAct s a).devices = s.devices := by cases a <;> rfl

@[simp] theorem otherHartStore_regs (h : Nat) (pa : PhysAddr) (w : Width) (v : Word) (s : State) :
    (otherHartStore h pa w v s).regs = s.regs := by
  unfold otherHartStore; split <;> [split; skip] <;> simp
@[simp] theorem otherHartStore_pc (h : Nat) (pa : PhysAddr) (w : Width) (v : Word) (s : State) :
    (otherHartStore h pa w v s).pc = s.pc := by
  unfold otherHartStore; split <;> [split; skip] <;> simp
@[simp] theorem otherHartStore_priv (h : Nat) (pa : PhysAddr) (w : Width) (v : Word) (s : State) :
    (otherHartStore h pa w v s).priv = s.priv := by
  unfold otherHartStore; split <;> [split; skip] <;> simp
@[simp] theorem otherHartStore_csr (h : Nat) (pa : PhysAddr) (w : Width) (v : Word) (s : State) :
    (otherHartStore h pa w v s).csr = s.csr := by
  unfold otherHartStore; split <;> [split; skip] <;> simp
@[simp] theorem otherHartStore_tlb (h : Nat) (pa : PhysAddr) (w : Width) (v : Word) (s : State) :
    (otherHartStore h pa w v s).tlb = s.tlb := by
  unfold otherHartStore; split <;> [split; skip] <;> simp
@[simp] theorem otherHartStore_cfg (h : Nat) (pa : PhysAddr) (w : Width) (v : Word) (s : State) :
    (otherHartStore h pa w v s).cfg = s.cfg := by
  unfold otherHartStore; split <;> [split; skip] <;> simp
@[simp] theorem otherHartStore_parked (h : Nat) (pa : PhysAddr) (w : Width) (v : Word) (s : State) :
    (otherHartStore h pa w v s).parked = s.parked := by
  unfold otherHartStore; split <;> [split; skip] <;> simp
@[simp] theorem otherHartStore_evTrap (h : Nat) (pa : PhysAddr) (w : Width) (v : Word) (s : State) :
    (otherHartStore h pa w v s).evTrap = s.evTrap := by
  unfold otherHartStore; split <;> [split; skip] <;> simp
@[simp] theorem otherHartStore_mmioLog (h : Nat) (pa : PhysAddr) (w : Width) (v : Word) (s : State) :
    (otherHartStore h pa w v s).mmioLog = s.mmioLog := by
  unfold otherHartStore; split <;> [split; skip] <;> simp
@[simp] theorem otherHartStore_agenda (h : Nat) (pa : PhysAddr) (w : Width) (v : Word) (s : State) :
    (otherHartStore h pa w v s).agenda = s.agenda := by
  unfold otherHartStore; split <;> [split; skip] <;> simp
@[simp] theorem otherHartStore_interleaved (h : Nat) (pa : PhysAddr) (w : Width) (v : Word) (s : State) :
    (otherHartStore h pa w v s).interleaved = s.interleaved := by
  unfold otherHartStore; split <;> [split; skip] <;> simp

@[simp] theorem agentAct_regs (s : State) (a : AgentAction) : (agentAct s a).regs = s.regs := by
  cases a <;> simp only [agentAct] <;> first | (split <;> simp) | simp
@[simp] theorem agentAct_pc (s : State) (a : AgentAction) : (agentAct s a).pc = s.pc := by
  cases a <;> simp only [agentAct] <;> first | (split <;> simp) | simp
@[simp] theorem agentAct_priv (s : State) (a : AgentAction) : (agentAct s a).priv = s.priv := by
  cases a <;> simp only [agentAct] <;> first | (split <;> simp) | simp
@[simp] theorem agentAct_csr (s : State) (a : AgentAction) : (agentAct s a).csr = s.csr := by
  cases a <;> simp only [agentAct] <;> first | (split <;> simp) | simp
@[simp] theorem agentAct_tlb (s : State) (a : AgentAction) : (agentAct s a).tlb = s.tlb := by
  cases a <;> simp only [agentAct] <;> first | (split <;> simp) | simp
@[simp] theorem agentAct_cfg (s : State) (a : AgentAction) : (agentAct s a).cfg = s.cfg := by
  cases a <;> simp only [agentAct] <;> first | (split <;> simp) | simp
@[simp] theorem agentAct_parked (s : State) (a : AgentAction) : (agentAct s a).parked = s.parked := by
  cases a <;> simp only [agentAct] <;> first | (split <;> simp) | simp
@[simp] theorem agentAct_evTrap (s : State) (a : AgentAction) : (agentAct s a).evTrap = s.evTrap := by
  cases a <;> simp only [agentAct] <;> first | (split <;> simp) | simp
@[simp] theorem agentAct_mmioLog (s : State) (a : AgentAction) : (agentAct s a).mmioLog = s.mmioLog := by
  cases a <;> simp only [agentAct] <;> first | (split <;> simp) | simp
@[simp] theorem agentAct_agenda (s : State) (a : AgentAction) : (agentAct s a).agenda = s.agenda := by
  cases a <;> simp only [agentAct] <;> first | (split <;> simp) | simp
@[simp] theorem agentAct_interleaved (s : State) (a : AgentAction) : (agentAct s a).interleaved = s.interleaved := by
  cases a <;> simp only [agentAct] <;> first | (split <;> simp) | simp

@[simp] theorem interleave_regs (s : State) : (interleave s).regs = s.regs := by
  unfold interleave; split
  · rfl
  · exact foldl_agentAct_keeps (·.regs) (fun s a => agentAct_regs s a) _ _
@[simp] theorem interleave_pc (s : State) : (interleave s).pc = s.pc := by
  unfold interleave; split
  · rfl
  · exact foldl_agentAct_keeps (·.pc) (fun s a => agentAct_pc s a) _ _
@[simp] theorem interleave_priv (s : State) : (interleave s).priv = s.priv := by
  unfold interleave; split
  · rfl
  · exact foldl_agentAct_keeps (·.priv) (fun s a => agentAct_priv s a) _ _
@[simp] theorem interleave_csr (s : State) : (interleave s).csr = s.csr := by
  unfold interleave; split
  · rfl
  · exact foldl_agentAct_keeps (·.csr) (fun s a => agentAct_csr s a) _ _
@[simp] theorem interleave_tlb (s : State) : (interleave s).tlb = s.tlb := by
  unfold interleave; split
  · rfl
  · exact foldl_agentAct_keeps (·.tlb) (fun s a => agentAct_tlb s a) _ _
@[simp] theorem interleave_cfg (s : State) : (interleave s).cfg = s.cfg := by
  unfold interleave; split
  · rfl
  · exact foldl_agentAct_keeps (·.cfg) (fun s a => agentAct_cfg s a) _ _
@[simp] theorem interleave_parked (s : State) : (interleave s).parked = s.parked := by
  unfold interleave; split
  · rfl
  · exact foldl_agentAct_keeps (·.parked) (fun s a => agentAct_parked s a) _ _
@[simp] theorem interleave_evTrap (s : State) : (interleave s).evTrap = s.evTrap := by
  unfold interleave; split
  · rfl
  · exact foldl_agentAct_keeps (·.evTrap) (fun s a => agentAct_evTrap s a) _ _
@[simp] theorem interleave_mmioLog (s : State) : (interleave s).mmioLog = s.mmioLog := by
  unfold interleave; split
  · rfl
  · exact foldl_agentAct_keeps (·.mmioLog) (fun s a => agentAct_mmioLog s a) _ _
@[simp] theorem interleave_agenda (s : State) : (interleave s).agenda = s.agenda := by
  unfold interleave; split
  · rfl
  · exact foldl_agentAct_keeps (·.agenda) (fun s a => agentAct_agenda s a) _ _
@[simp] theorem interleave_interleaved (s : State) : (interleave s).interleaved = s.interleaved.tail := by
  unfold interleave; split
  · simp [*]
  · rename_i h; rw [h]; exact foldl_agentAct_keeps (·.interleaved) (fun s a => agentAct_interleaved s a) _ _

/-- Where no other agent acts inside an instruction, a memory event finds the state as it was. -/
theorem interleave_of_nil {s : State} (h : s.interleaved = []) : interleave s = s := by unfold interleave; rw [h]

@[simp] theorem updateAD_regs (a : PhysAddr) (pte : Word) (t : AccessType) (s : State) : (updateAD a pte t s).regs = s.regs := by
  unfold updateAD; split <;> simp
@[simp] theorem updateAD_pc (a : PhysAddr) (pte : Word) (t : AccessType) (s : State) : (updateAD a pte t s).pc = s.pc := by
  unfold updateAD; split <;> simp
@[simp] theorem updateAD_priv (a : PhysAddr) (pte : Word) (t : AccessType) (s : State) : (updateAD a pte t s).priv = s.priv := by
  unfold updateAD; split <;> simp
@[simp] theorem updateAD_csr (a : PhysAddr) (pte : Word) (t : AccessType) (s : State) : (updateAD a pte t s).csr = s.csr := by
  unfold updateAD; split <;> simp
@[simp] theorem updateAD_tlb (a : PhysAddr) (pte : Word) (t : AccessType) (s : State) : (updateAD a pte t s).tlb = s.tlb := by
  unfold updateAD; split <;> simp
@[simp] theorem updateAD_cfg (a : PhysAddr) (pte : Word) (t : AccessType) (s : State) : (updateAD a pte t s).cfg = s.cfg := by
  unfold updateAD; split <;> simp
@[simp] theorem updateAD_parked (a : PhysAddr) (pte : Word) (t : AccessType) (s : State) : (updateAD a pte t s).parked = s.parked := by
  unfold updateAD; split <;> simp
@[simp] theorem updateAD_evTrap (a : PhysAddr) (pte : Word) (t : AccessType) (s : State) : (updateAD a pte t s).evTrap = s.evTrap := by
  unfold updateAD; split <;> simp
@[simp] theorem updateAD_mmioLog (a : PhysAddr) (pte : Word) (t : AccessType) (s : State) : (updateAD a pte t s).mmioLog = s.mmioLog := by
  unfold updateAD; split <;> simp
@[simp] theorem updateAD_agenda (a : PhysAddr) (pte : Word) (t : AccessType) (s : State) : (updateAD a pte t s).agenda = s.agenda := by
  unfold updateAD; split <;> simp

/-! ## The event fold -/

@[simp] theorem eventFold_regs (s : State) : (eventFold s).regs = s.regs := rfl
@[simp] theorem eventFold_pc (s : State) : (eventFold s).pc = s.pc := rfl
@[simp] theorem eventFold_priv (s : State) : (eventFold s).priv = s.priv := rfl
@[simp] theorem eventFold_tlb (s : State) : (eventFold s).tlb = s.tlb := rfl
@[simp] theorem eventFold_time (s : State) : (eventFold s).time = s.time := rfl
@[simp] theorem eventFold_timecmp (s : State) : (eventFold s).timecmp = s.timecmp := rfl
@[simp] theorem eventFold_waitEvent (s : State) : (eventFold s).waitEvent = s.waitEvent := rfl
@[simp] theorem eventFold_evTrap (s : State) : (eventFold s).evTrap = s.evTrap := rfl
@[simp] theorem eventFold_evInt (s : State) : (eventFold s).evInt = false := rfl
@[simp] theorem eventFold_evIntMask (s : State) : (eventFold s).evIntMask = 0#32 := rfl
@[simp] theorem eventFold_parked (s : State) : (eventFold s).parked = s.parked := rfl
@[simp] theorem eventFold_rsv (s : State) : (eventFold s).rsv = s.rsv := rfl
@[simp] theorem eventFold_mem (s : State) : (eventFold s).mem = s.mem := rfl
@[simp] theorem eventFold_cfg (s : State) : (eventFold s).cfg = s.cfg := rfl
@[simp] theorem eventFold_devices (s : State) : (eventFold s).devices = s.devices := rfl
@[simp] theorem eventFold_mmioLog (s : State) : (eventFold s).mmioLog = s.mmioLog := rfl
@[simp] theorem eventFold_agenda (s : State) : (eventFold s).agenda = s.agenda := rfl
@[simp] theorem eventFold_interleaved (s : State) : (eventFold s).interleaved = s.interleaved := rfl

@[simp] theorem eventFold_csr (s : State) : (eventFold s).csr =
    { s.csr with ip := if timerPending s then s.csr.ip ||| s.evIntMask else setBit (s.csr.ip ||| s.evIntMask) 7 false } := rfl

/-! ## Trap entry -/

@[simp] theorem takeTrap_regs (p : Priv) (cause tval epcval : Word) (s : State) : (takeTrap p cause tval epcval s).regs = s.regs := by simp [takeTrap, trapVectorJump]
@[simp] theorem takeTrap_priv (p : Priv) (cause tval epcval : Word) (s : State) : (takeTrap p cause tval epcval s).priv = p := by simp [takeTrap, trapVectorJump]
@[simp] theorem takeTrap_time (p : Priv) (cause tval epcval : Word) (s : State) : (takeTrap p cause tval epcval s).time = s.time := by simp [takeTrap, trapVectorJump]
@[simp] theorem takeTrap_timecmp (p : Priv) (cause tval epcval : Word) (s : State) : (takeTrap p cause tval epcval s).timecmp = s.timecmp := by simp [takeTrap, trapVectorJump]
@[simp] theorem takeTrap_waitEvent (p : Priv) (cause tval epcval : Word) (s : State) : (takeTrap p cause tval epcval s).waitEvent = s.waitEvent := by simp [takeTrap, trapVectorJump]
@[simp] theorem takeTrap_evTrap (p : Priv) (cause tval epcval : Word) (s : State) : (takeTrap p cause tval epcval s).evTrap = false := by simp [takeTrap, trapVectorJump]
@[simp] theorem takeTrap_evInt (p : Priv) (cause tval epcval : Word) (s : State) : (takeTrap p cause tval epcval s).evInt = s.evInt := by simp [takeTrap, trapVectorJump]
@[simp] theorem takeTrap_evIntMask (p : Priv) (cause tval epcval : Word) (s : State) : (takeTrap p cause tval epcval s).evIntMask = s.evIntMask := by simp [takeTrap, trapVectorJump]
@[simp] theorem takeTrap_parked (p : Priv) (cause tval epcval : Word) (s : State) : (takeTrap p cause tval epcval s).parked = s.parked := by simp [takeTrap, trapVectorJump]
@[simp] theorem takeTrap_rsv (p : Priv) (cause tval epcval : Word) (s : State) : (takeTrap p cause tval epcval s).rsv = none := by simp [takeTrap, trapVectorJump]
@[simp] theorem takeTrap_mem (p : Priv) (cause tval epcval : Word) (s : State) : (takeTrap p cause tval epcval s).mem = s.mem := by simp [takeTrap, trapVectorJump]
@[simp] theorem takeTrap_cfg (p : Priv) (cause tval epcval : Word) (s : State) : (takeTrap p cause tval epcval s).cfg = s.cfg := by simp [takeTrap, trapVectorJump]
@[simp] theorem takeTrap_devices (p : Priv) (cause tval epcval : Word) (s : State) : (takeTrap p cause tval epcval s).devices = s.devices := by simp [takeTrap, trapVectorJump]
@[simp] theorem takeTrap_mmioLog (p : Priv) (cause tval epcval : Word) (s : State) : (takeTrap p cause tval epcval s).mmioLog = s.mmioLog := by simp [takeTrap, trapVectorJump]
@[simp] theorem takeTrap_agenda (p : Priv) (cause tval epcval : Word) (s : State) : (takeTrap p cause tval epcval s).agenda = s.agenda := by simp [takeTrap, trapVectorJump]
@[simp] theorem takeTrap_interleaved (p : Priv) (cause tval epcval : Word) (s : State) : (takeTrap p cause tval epcval s).interleaved = s.interleaved := by simp [takeTrap, trapVectorJump]

@[simp] theorem takeTrap_csr (p : Priv) (cause tval epcval : Word) (s : State) : (takeTrap p cause tval epcval s).csr =
    { s.csr with epc := s.csr.epc.set p (epcval &&& 0xFFFFFFFE#32), cause := s.csr.cause.set p cause,
                 tval := s.csr.tval.set p tval, status := trapStatus p s.priv s.csr.status } := by
  simp [takeTrap, trapVectorJump]

/-! ## A synchronous exception -/

@[simp] theorem raiseException_regs (e : Exception) (tval : Word) (s : State) : (raiseException e tval s).regs = s.regs := by simp [raiseException]
@[simp] theorem raiseException_priv (e : Exception) (tval : Word) (s : State) : (raiseException e tval s).priv = exceptionTarget e.code s := by simp [raiseException]
@[simp] theorem raiseException_time (e : Exception) (tval : Word) (s : State) : (raiseException e tval s).time = s.time := by simp [raiseException]
@[simp] theorem raiseException_timecmp (e : Exception) (tval : Word) (s : State) : (raiseException e tval s).timecmp = s.timecmp := by simp [raiseException]
@[simp] theorem raiseException_waitEvent (e : Exception) (tval : Word) (s : State) : (raiseException e tval s).waitEvent = s.waitEvent := by simp [raiseException]
@[simp] theorem raiseException_evTrap (e : Exception) (tval : Word) (s : State) : (raiseException e tval s).evTrap = false := by simp [raiseException]
@[simp] theorem raiseException_evInt (e : Exception) (tval : Word) (s : State) : (raiseException e tval s).evInt = s.evInt := by simp [raiseException]
@[simp] theorem raiseException_evIntMask (e : Exception) (tval : Word) (s : State) : (raiseException e tval s).evIntMask = s.evIntMask := by simp [raiseException]
@[simp] theorem raiseException_parked (e : Exception) (tval : Word) (s : State) : (raiseException e tval s).parked = s.parked := by simp [raiseException]
@[simp] theorem raiseException_rsv (e : Exception) (tval : Word) (s : State) : (raiseException e tval s).rsv = none := by simp [raiseException]
@[simp] theorem raiseException_mem (e : Exception) (tval : Word) (s : State) : (raiseException e tval s).mem = s.mem := by simp [raiseException]
@[simp] theorem raiseException_cfg (e : Exception) (tval : Word) (s : State) : (raiseException e tval s).cfg = s.cfg := by simp [raiseException]
@[simp] theorem raiseException_devices (e : Exception) (tval : Word) (s : State) : (raiseException e tval s).devices = s.devices := by simp [raiseException]
@[simp] theorem raiseException_mmioLog (e : Exception) (tval : Word) (s : State) : (raiseException e tval s).mmioLog = s.mmioLog := by simp [raiseException]
@[simp] theorem raiseException_agenda (e : Exception) (tval : Word) (s : State) : (raiseException e tval s).agenda = s.agenda := by simp [raiseException]
@[simp] theorem raiseException_interleaved (e : Exception) (tval : Word) (s : State) : (raiseException e tval s).interleaved = s.interleaved := by simp [raiseException]

/-! ## The trap return -/

@[simp] theorem trapReturn_regs (x : Priv) (s : State) : (trapReturn x s).regs = s.regs := by simp [trapReturn]
@[simp] theorem trapReturn_pc (x : Priv) (s : State) : (trapReturn x s).pc = s.csr.epc.get x := by simp [trapReturn]
@[simp] theorem trapReturn_priv (x : Priv) (s : State) : (trapReturn x s).priv = statusPP s.csr.status x := by simp [trapReturn]
@[simp] theorem trapReturn_csr (x : Priv) (s : State) : (trapReturn x s).csr = { s.csr with status := retStatus x s.csr.status } := by simp [trapReturn]
@[simp] theorem trapReturn_time (x : Priv) (s : State) : (trapReturn x s).time = s.time := by simp [trapReturn]
@[simp] theorem trapReturn_timecmp (x : Priv) (s : State) : (trapReturn x s).timecmp = s.timecmp := by simp [trapReturn]
@[simp] theorem trapReturn_waitEvent (x : Priv) (s : State) : (trapReturn x s).waitEvent = false := by simp [trapReturn]
@[simp] theorem trapReturn_evTrap (x : Priv) (s : State) : (trapReturn x s).evTrap = s.evTrap := by simp [trapReturn]
@[simp] theorem trapReturn_evInt (x : Priv) (s : State) : (trapReturn x s).evInt = true := by simp [trapReturn]
@[simp] theorem trapReturn_evIntMask (x : Priv) (s : State) : (trapReturn x s).evIntMask = s.evIntMask := by simp [trapReturn]
@[simp] theorem trapReturn_parked (x : Priv) (s : State) : (trapReturn x s).parked = s.parked := by simp [trapReturn]
@[simp] theorem trapReturn_rsv (x : Priv) (s : State) : (trapReturn x s).rsv = s.rsv := by simp [trapReturn]
@[simp] theorem trapReturn_mem (x : Priv) (s : State) : (trapReturn x s).mem = s.mem := by simp [trapReturn]
@[simp] theorem trapReturn_cfg (x : Priv) (s : State) : (trapReturn x s).cfg = s.cfg := by simp [trapReturn]
@[simp] theorem trapReturn_devices (x : Priv) (s : State) : (trapReturn x s).devices = s.devices := by simp [trapReturn]
@[simp] theorem trapReturn_mmioLog (x : Priv) (s : State) : (trapReturn x s).mmioLog = s.mmioLog := by simp [trapReturn]
@[simp] theorem trapReturn_agenda (x : Priv) (s : State) : (trapReturn x s).agenda = s.agenda := by simp [trapReturn]
@[simp] theorem trapReturn_interleaved (x : Priv) (s : State) : (trapReturn x s).interleaved = s.interleaved := by simp [trapReturn]

end Sys2Proof.Machine
end

