-- ==== Sys2Proof/Laws/Memory.lean ====
section
/-! SUPPORT. Laws of sparse data and of RAM: read after write, what a write leaves alone, and that every memory
operation keeps the canonical form. -/

namespace Sys2Proof.Machine

/-! ## Sparse data -/

theorem sparseGet_set_same {α : Type} (k : Nat) (v : α) (l : List (Nat × α)) :
    sparseGet k (sparseSet k v l) = some v := by
  induction l with
  | nil => simp [sparseSet, sparseGet]
  | cons c rest ih =>
    obtain ⟨a, b⟩ := c
    simp only [sparseSet]
    split
    · simp [sparseGet]
    · split <;> simp_all [sparseGet]

theorem sparseGet_set_other {α : Type} {k j : Nat} (h : j ≠ k) (v : α) (l : List (Nat × α)) :
    sparseGet j (sparseSet k v l) = sparseGet j l := by
  have hk : ¬ k = j := fun e => h e.symm
  induction l with
  | nil => simp [sparseSet, sparseGet, hk]
  | cons c rest ih =>
    obtain ⟨a, b⟩ := c
    simp only [sparseSet]
    split
    · simp [sparseGet, hk]
    · split
      · subst_vars; simp [sparseGet, hk]
      · simp [sparseGet, ih]

theorem sparseGet_erase_other {α : Type} {k j : Nat} (h : j ≠ k) (l : List (Nat × α)) :
    sparseGet j (sparseErase k l) = sparseGet j l := by
  have hk : ¬ k = j := fun e => h e.symm
  induction l with
  | nil => rfl
  | cons c rest ih =>
    obtain ⟨a, b⟩ := c
    simp only [sparseErase]
    split
    · subst_vars; simp [sparseGet, hk]
    · simp [sparseGet, ih]

theorem sparseSortedFrom_mono {α : Type} {lo lo' : Nat} (h : lo ≤ lo') {l : List (Nat × α)}
    (hs : sparseSortedFrom lo' l = true) : sparseSortedFrom lo l = true := by
  cases l with
  | nil => rfl
  | cons c rest =>
    simp only [sparseSortedFrom, Bool.and_eq_true, decide_eq_true_eq] at hs ⊢
    exact ⟨by omega, hs.2⟩

theorem sparseGet_below {α : Type} {k lo : Nat} (h : k < lo) {l : List (Nat × α)}
    (hs : sparseSortedFrom lo l = true) : sparseGet k l = none := by
  induction l generalizing lo with
  | nil => rfl
  | cons c rest ih =>
    obtain ⟨a, b⟩ := c
    simp only [sparseSortedFrom, Bool.and_eq_true, decide_eq_true_eq] at hs
    have : ¬ a = k := by omega
    simpa [sparseGet, this] using ih (by omega) hs.2

theorem sparseGet_erase_same {α : Type} {k lo : Nat} {l : List (Nat × α)}
    (hs : sparseSortedFrom lo l = true) : sparseGet k (sparseErase k l) = none := by
  induction l generalizing lo with
  | nil => rfl
  | cons c rest ih =>
    obtain ⟨a, b⟩ := c
    simp only [sparseSortedFrom, Bool.and_eq_true, decide_eq_true_eq] at hs
    simp only [sparseErase]
    split
    · exact sparseGet_below (by omega) hs.2
    · rename_i hne; simpa [sparseGet, hne] using ih hs.2

theorem sparseSortedFrom_set {α : Type} {k lo : Nat} (h : lo ≤ k) (v : α) {l : List (Nat × α)}
    (hs : sparseSortedFrom lo l = true) : sparseSortedFrom lo (sparseSet k v l) = true := by
  induction l generalizing lo with
  | nil => simpa [sparseSet, sparseSortedFrom] using h
  | cons c rest ih =>
    obtain ⟨a, b⟩ := c
    simp only [sparseSortedFrom, Bool.and_eq_true, decide_eq_true_eq] at hs
    simp only [sparseSet]
    split
    · simp [sparseSortedFrom, h, hs.2]; omega
    · split
      · subst_vars; simp [sparseSortedFrom, hs.1, hs.2]
      · simp only [sparseSortedFrom, Bool.and_eq_true, decide_eq_true_eq]
        exact ⟨hs.1, ih (by omega) hs.2⟩

theorem sparseSortedFrom_erase {α : Type} {k lo : Nat} {l : List (Nat × α)}
    (hs : sparseSortedFrom lo l = true) : sparseSortedFrom lo (sparseErase k l) = true := by
  induction l generalizing lo with
  | nil => rfl
  | cons c rest ih =>
    obtain ⟨a, b⟩ := c
    simp only [sparseSortedFrom, Bool.and_eq_true, decide_eq_true_eq] at hs
    simp only [sparseErase]
    split
    · exact sparseSortedFrom_mono (by omega) hs.2
    · simp only [sparseSortedFrom, Bool.and_eq_true, decide_eq_true_eq]
      exact ⟨hs.1, ih hs.2⟩

theorem all_sparseSet {α : Type} {q : Nat × α → Bool} {k : Nat} {v : α} {l : List (Nat × α)}
    (hl : l.all q = true) (hv : q (k, v) = true) : (sparseSet k v l).all q = true := by
  induction l with
  | nil => simpa [sparseSet] using hv
  | cons c rest ih =>
    obtain ⟨a, b⟩ := c
    simp only [List.all_cons, Bool.and_eq_true] at hl
    simp only [sparseSet]
    split
    · simp only [List.all_cons, Bool.and_eq_true]; exact ⟨hv, hl⟩
    · split
      · simp only [List.all_cons, Bool.and_eq_true]; exact ⟨hv, hl.2⟩
      · simp only [List.all_cons, Bool.and_eq_true]; exact ⟨hl.1, ih hl.2⟩

theorem all_sparseErase {α : Type} {q : Nat × α → Bool} {k : Nat} {l : List (Nat × α)}
    (hl : l.all q = true) : (sparseErase k l).all q = true := by
  induction l with
  | nil => rfl
  | cons c rest ih =>
    obtain ⟨a, b⟩ := c
    simp only [List.all_cons, Bool.and_eq_true] at hl
    simp only [sparseErase]
    split
    · exact hl.2
    · simp only [List.all_cons, Bool.and_eq_true]; exact ⟨hl.1, ih hl.2⟩

/-! ## One byte -/

theorem readByte_writeByte_other {a b : Nat} (h : b ≠ a) (v : Byte) (m : Memory) :
    readByte (writeByte a v m) b = readByte m b := by
  unfold readByte writeByte
  split
  · rw [sparseGet_erase_other h]
  · rw [sparseGet_set_other h]

theorem readByte_writeByte_same {a : Nat} {v : Byte} {m : Memory} (h : m.wf = true) :
    readByte (writeByte a v m) a = v := by
  unfold readByte writeByte
  simp only [Memory.wf, Bool.and_eq_true] at h
  split
  · rw [sparseGet_erase_same h.1]; simp_all
  · rw [sparseGet_set_same]; rfl

theorem writeByte_wf {a : Nat} {v : Byte} {m : Memory} (h : m.wf = true) : Memory.wf (writeByte a v m) = true := by
  simp only [Memory.wf, Bool.and_eq_true] at h ⊢
  unfold writeByte
  split
  · exact ⟨sparseSortedFrom_erase h.1, all_sparseErase h.2⟩
  · exact ⟨sparseSortedFrom_set (Nat.zero_le _) _ h.1, all_sparseSet h.2 (by simpa using ‹_›)⟩

theorem all_writeByte {q : Host.Cell → Bool} {a : Nat} {v : Byte} {m : Memory} (h : m.all q = true)
    (hq : q (a, v) = true) : (writeByte a v m).all q = true := by
  unfold writeByte
  split
  · exact all_sparseErase h
  · exact all_sparseSet h hq

/-! ## Several bytes -/

theorem readByte_writeBytes_outside (n : Nat) (a b : Nat) (h : b < a ∨ a + n ≤ b) (v : Word) (m : Memory) :
    readByte (writeBytes a v m n) b = readByte m b := by
  induction n generalizing a v m with
  | zero => rfl
  | succ n ih =>
    rw [writeBytes, ih (a + 1) (by omega), readByte_writeByte_other (by omega)]

theorem writeBytes_wf (n : Nat) (a : Nat) (v : Word) {m : Memory} (h : m.wf = true) :
    Memory.wf (writeBytes a v m n) = true := by
  induction n generalizing a v m with
  | zero => exact h
  | succ n ih => exact ih _ _ (writeByte_wf h)

theorem readByte_writeBytes_inside (n : Nat) (a k : Nat) (hk : k < n) (v : Word) {m : Memory} (h : m.wf = true) :
    readByte (writeBytes a v m n) (a + k) = (v >>> (8 * k)).extractLsb' 0 8 := by
  induction n generalizing a k v m with
  | zero => omega
  | succ n ih =>
    rw [writeBytes]
    cases k with
    | zero =>
      rw [readByte_writeBytes_outside _ _ _ (by omega), Nat.add_zero, readByte_writeByte_same h]; simp
    | succ k =>
      have := ih (a + 1) k (by omega) (v >>> 8) (writeByte_wf (a := a) (v := v.extractLsb' 0 8) h)
      rw [show a + (k + 1) = a + 1 + k by omega, this, ← BitVec.shiftRight_add]
      congr 2; omega

theorem all_writeBytes {q : Host.Cell → Bool} (n : Nat) (a : Nat) (v : Word) {m : Memory} (h : m.all q = true)
    (hq : ∀ b x, a ≤ b → b < a + n → q (b, x) = true) : (writeBytes a v m n).all q = true := by
  induction n generalizing a v m with
  | zero => exact h
  | succ n ih =>
    exact ih _ _ (all_writeByte h (hq a _ (Nat.le_refl _) (by omega))) fun b x h1 h2 => hq b x (by omega) (by omega)

theorem readBytes_congr (n : Nat) (a : Nat) (m m' : Memory)
    (h : ∀ b, a ≤ b → b < a + n → readByte m b = readByte m' b) : readBytes m a n = readBytes m' a n := by
  induction n generalizing a with
  | zero => rfl
  | succ n ih =>
    rw [readBytes, readBytes, h a (Nat.le_refl _) (by omega), ih (a + 1) fun b h1 h2 => h b (by omega) (by omega)]

/-- A word read back from where it was stored is that word, byte order and all (R100). -/
theorem readBytes_writeBytes_word (a : Nat) (v : Word) {m : Memory} (h : m.wf = true) :
    readBytes (writeBytes a v m 4) a 4 = v := by
  have b (k : Nat) (hk : k < 4) := readByte_writeBytes_inside 4 a k hk v h
  simp only [readBytes]
  rw [show a + 1 + 1 + 1 = a + 3 by omega, show a + 1 + 1 = a + 2 by omega, b 1 (by omega), b 2 (by omega), b 3 (by omega),
    show readByte (writeBytes a v m 4) a = _ from b 0 (by omega)]
  apply BitVec.eq_of_getLsbD_eq
  intro i hi
  simp only [zext, BitVec.getLsbD_or, BitVec.getLsbD_shiftLeft, BitVec.truncate_eq_setWidth, BitVec.getLsbD_setWidth,
    BitVec.getLsbD_extractLsb', BitVec.getLsbD_ushiftRight]
  interval_cases i <;> simp

/-! ## Devices and other harts keep the canonical form -/

theorem deviceBytes_wf (p : Config.Params) (bytes : List Byte) (a : Nat) {m : Memory} (h : m.wf = true) :
    Memory.wf (deviceBytes p a m bytes) = true := by
  induction bytes generalizing a m with
  | nil => exact h
  | cons b rest ih =>
    rw [deviceBytes]
    split
    · exact ih _ (writeByte_wf h)
    · exact ih _ h

theorem deviceAct_mem_wf {s : State} (a : Config.DeviceAction) (h : s.mem.wf = true) : (deviceAct s a).mem.wf = true := by
  cases a with
  | post b => exact h
  | setTimecmp v => exact h
  | ramWrite addr bytes => exact deviceBytes_wf _ _ _ h

theorem mmioCall_mem_wf {s : State} (acc : Config.MmioAccess) (h : s.mem.wf = true) : (mmioCall acc s).mem.wf = true := by
  have key : ∀ (l : List Config.DeviceAction) (t : State), t.mem.wf = true → (l.foldl deviceAct t).mem.wf = true := by
    intro l
    induction l with
    | nil => exact fun _ h => h
    | cons a rest ih => exact fun t ht => ih _ (deviceAct_mem_wf a ht)
  exact key _ _ h

theorem otherHartStore_mem_wf {s : State} (h : Nat) (pa : PhysAddr) (w : Width) (v : Word) (hm : s.mem.wf = true) :
    (otherHartStore h pa w v s).mem.wf = true := by
  unfold otherHartStore
  split
  · split
    · simpa using writeBytes_wf _ _ _ hm
    · exact writeBytes_wf _ _ _ hm
  · exact hm

theorem agentAct_mem_wf {s : State} (a : AgentAction) (h : s.mem.wf = true) : (agentAct s a).mem.wf = true := by
  cases a with
  | device a => exact deviceAct_mem_wf a h
  | deviceState n => exact h
  | timer => simp only [agentAct]; split <;> exact h
  | timeTo t => simp only [agentAct]; split <;> exact h
  | otherHartStore g pa w v => exact otherHartStore_mem_wf g pa w v h

/-- A memory event finds memory in its canonical form, whatever the other agents have done before it. -/
theorem interleave_mem_wf {s : State} (h : s.mem.wf = true) : (interleave s).mem.wf = true := by
  have key : ∀ (l : List AgentAction) (t : State), t.mem.wf = true → (l.foldl agentAct t).mem.wf = true := by
    intro l
    induction l with
    | nil => exact fun _ h => h
    | cons a rest ih => exact fun t ht => ih _ (agentAct_mem_wf a ht)
  unfold interleave
  split
  · exact h
  · exact key _ _ h

theorem ramWrite_mem_wf {s : State} (pa : PhysAddr) (n : Nat) (v : Word) (h : s.mem.wf = true) :
    (ramWrite pa n v s).mem.wf = true := by
  simpa using writeBytes_wf _ _ _ h

theorem updateAD_mem_wf {s : State} (a : PhysAddr) (pte : Word) (t : AccessType) (h : s.mem.wf = true) :
    (updateAD a pte t s).mem.wf = true := by
  unfold updateAD; split
  · exact h
  · exact writeBytes_wf _ _ _ (interleave_mem_wf h)

/-- RAM after reset is in its canonical form. -/
theorem reset_mem_wf : State.reset.mem.wf = true := rfl

end Sys2Proof.Machine
end

