-- ==== Sys2Proof/Laws/Registers.lean ====
section
/-! SUPPORT. Laws of the integer registers (R10, R21), of single bits, and of the fields of `status` (R40). -/

namespace Sys2Proof.Machine

/-! ## Integer registers -/

@[simp] theorem readReg_zero (s : State) : readReg s 0#5 = 0#32 := rfl

theorem readReg_congr {s t : State} (h : s.regs = t.regs) (r : Reg) : readReg s r = readReg t r := by
  unfold readReg; rw [h]

theorem readReg_writeReg_same {r : Reg} (h : r ≠ 0#5) (v : Word) (s : State) : readReg (writeReg r v s) r = v := by
  simp [readReg, writeReg, h]

theorem readReg_writeReg_other {r q : Reg} (h : q ≠ r) (v : Word) (s : State) :
    readReg (writeReg r v s) q = readReg s q := by
  unfold writeReg
  split
  · rfl
  · have : r.toNat ≠ q.toNat := fun e => h (BitVec.eq_of_toNat_eq e.symm)
    simp [readReg, this]

/-- What a register reads as after a write: the written value, but 0 for x0 (R21). -/
theorem readReg_writeReg (r q : Reg) (v : Word) (s : State) :
    readReg (writeReg r v s) q = if q = 0#5 then 0#32 else if q = r then v else readReg s q := by
  by_cases h0 : q = 0#5
  · subst h0; simp
  · by_cases h : q = r
    · subst h; simp [h0, readReg_writeReg_same h0]
    · simp [h0, h, readReg_writeReg_other h]

@[simp] theorem readReg_interleave (s : State) (r : Reg) : readReg (interleave s) r = readReg s r :=
  readReg_congr (by simp) r

@[simp] theorem readReg_advance (len : Word) (s : State) (r : Reg) : readReg (advance len s) r = readReg s r := rfl

@[simp] theorem readReg_setPc (target : Word) (s : State) (r : Reg) : readReg (setPc target s) r = readReg s r := rfl

@[simp] theorem readReg_takeTrap (p : Priv) (c t e : Word) (s : State) (r : Reg) :
    readReg (takeTrap p c t e s) r = readReg s r := readReg_congr (by simp) r

@[simp] theorem readReg_raiseException (e : Exception) (t : Word) (s : State) (r : Reg) :
    readReg (raiseException e t s) r = readReg s r := readReg_takeTrap ..

@[simp] theorem readReg_trapReturn (x : Priv) (s : State) (r : Reg) :
    readReg (trapReturn x s) r = readReg s r := readReg_congr (by simp) r

@[simp] theorem readReg_ramWrite (pa : PhysAddr) (n : Nat) (v : Word) (s : State) (r : Reg) :
    readReg (ramWrite pa n v s) r = readReg s r := readReg_congr (by simp) r

/-! ## Bits -/

theorem getLsbD_setBit (w : Word) (i : Nat) (b : Bool) (j : Nat) (hj : j < 32) :
    (setBit w i b).getLsbD j = if i = j then b else w.getLsbD j := by
  have h1 : (1#32).getLsbD (j - i) = decide (j - i = 0) := by
    rw [show (1#32 : BitVec 32) = BitVec.ofNat 32 1 from rfl, BitVec.getLsbD_ofNat]
    rcases Nat.eq_zero_or_pos (j - i) with h | h
    · simp [h]
    · have : Nat.testBit 1 (j - i) = false := Nat.testBit_lt_two_pow (by
        calc 1 = 2 ^ 0 := rfl
          _ < 2 ^ (j - i) := Nat.pow_lt_pow_right (by omega) h)
      simp [this]; omega
  unfold setBit
  by_cases hb : b = true
  · subst hb
    simp only [if_true, BitVec.getLsbD_or, BitVec.getLsbD_shiftLeft, h1, hj, decide_true, Bool.true_and]
    split
    · subst_vars; simp
    · by_cases hlt : j < i
      · simp [hlt]
      · simp [hlt]; intro; omega
  · simp only [Bool.not_eq_true] at hb
    subst hb
    simp only [Bool.false_eq_true, if_false, BitVec.getLsbD_and, BitVec.getLsbD_not, BitVec.getLsbD_shiftLeft, h1, hj,
      decide_true, Bool.true_and]
    split
    · subst_vars; simp
    · by_cases hlt : j < i
      · simp [hlt]
      · simp [hlt]; intro; omega

theorem getElem_setBit (w : Word) (i : Nat) (b : Bool) (j : Nat) (hj : j < 32) :
    (setBit w i b)[j] = if i = j then b else w[j] := by
  rw [← BitVec.getLsbD_eq_getElem, getLsbD_setBit w i b j hj, BitVec.getLsbD_eq_getElem]

/-- The three privilege levels and their two-bit codes (R27). -/
theorem privOfCode_code (p : Priv) : privOfCode p.code = p := by cases p <;> decide

theorem Priv.above_irrefl (p : Priv) : p.above p = false := by cases p <;> decide

end Sys2Proof.Machine
end

