-- ==== Sys2Proof/Laws/Ops.lean ====
section
/-! SUPPORT. For each shared operation, what it can do, said once: later proofs cite these and do not unfold. -/

namespace Sys2Proof.Machine

/-! ## The pieces of an instruction -/

theorem andThen_ok {α β : Type} {r : Access α} {f : α → State → Access β} {b : β} {s' : State}
    (h : r.andThen f = .ok b s') : ∃ a s1, r = .ok a s1 ∧ f a s1 = .ok b s' := by
  cases r with
  | ok a s1 => exact ⟨a, s1, rfl, h⟩
  | raise e t s1 => cases h

theorem andThen_raise {α β : Type} {r : Access α} {f : α → State → Access β} {e : Exception} {tv : Word} {s' : State}
    (h : r.andThen f = .raise e tv s') :
    r = .raise e tv s' ∨ ∃ a s1, r = .ok a s1 ∧ f a s1 = .raise e tv s' := by
  cases r with
  | ok a s1 => exact .inr ⟨a, s1, rfl, h⟩
  | raise e' t s1 => cases h; exact .inl rfl

/-- An instruction built of parts always gives a next state: it commits or it traps (R12). -/
theorem finish_next {α : Type} (r : Access α) (commit : α → State → State) :
    (∃ a s1, r = .ok a s1 ∧ r.finish commit = .next (commit a s1)) ∨
      ∃ e tv s1, r = .raise e tv s1 ∧ r.finish commit = .next (raiseException e tv s1) := by
  cases r with
  | ok a s1 => exact .inl ⟨a, s1, rfl, rfl⟩
  | raise e t s1 => exact .inr ⟨e, t, s1, rfl, rfl⟩

/-! ## What no other agent changes -/

/-- The state of the hart that no other agent and no translation changes (R14); the TLB apart. -/
structure SamePrivate (s t : State) : Prop where
  regs : t.regs = s.regs
  pc : t.pc = s.pc
  priv : t.priv = s.priv
  csr : t.csr = s.csr
  cfg : t.cfg = s.cfg
  parked : t.parked = s.parked
  evTrap : t.evTrap = s.evTrap
  mmioLog : t.mmioLog = s.mmioLog
  agenda : t.agenda = s.agenda

theorem SamePrivate.refl (s : State) : SamePrivate s s := by constructor <;> rfl

theorem SamePrivate.trans {s t u : State} (h : SamePrivate s t) (h' : SamePrivate t u) : SamePrivate s u := by
  constructor
  · rw [h'.regs, h.regs]
  · rw [h'.pc, h.pc]
  · rw [h'.priv, h.priv]
  · rw [h'.csr, h.csr]
  · rw [h'.cfg, h.cfg]
  · rw [h'.parked, h.parked]
  · rw [h'.evTrap, h.evTrap]
  · rw [h'.mmioLog, h.mmioLog]
  · rw [h'.agenda, h.agenda]

theorem interleave_private (s : State) : SamePrivate s (interleave s) := by constructor <;> simp

theorem updateAD_private (a : PhysAddr) (pte : Word) (t : AccessType) (s : State) : SamePrivate s (updateAD a pte t s) := by
  constructor <;> simp

theorem tlbFill_private (va : Word) (t : AccessType) (pa : PhysAddr) (s : State) : SamePrivate s (tlbFill va t pa s) := by
  constructor <;> simp

/-! ## Translation -/

theorem pteRead_ok {a : PhysAddr} {t : AccessType} {va : Word} {s : State} {pte : Word} {s' : State}
    (h : pteRead a t va s = .ok pte s') :
    s' = interleave s ∧ inRam s.cfg a 4 = true ∧ pte = readBytes (interleave s).mem a.toNat 4 := by
  unfold pteRead at h
  split at h
  · cases h; exact ⟨rfl, ‹_›, rfl⟩
  · cases h

theorem pteRead_raise {a : PhysAddr} {t : AccessType} {va : Word} {s : State} {e : Exception} {tv : Word} {s' : State}
    (h : pteRead a t va s = .raise e tv s') : s' = s ∧ tv = va ∧ e = accessFault t := by
  unfold pteRead at h
  split at h
  · cases h
  · cases h; exact ⟨rfl, rfl, rfl⟩

/-- A walk that succeeds: the entries it read, each from RAM as the other agents left it, and the update of the A and D
bits of its leaf (R123, R128, R141). -/
theorem walk_ok {va : Word} {t : AccessType} {eff : Priv} {s : State} {pa : PhysAddr} {s' : State}
    (h : walk va t eff s = .ok pa s') :
    let a1 := level1Addr (satpPpn s) va
    let s1 := interleave s
    let pte1 := readBytes s1.mem a1.toNat 4
    let a0 := level0Addr (ptePpn pte1) va
    let s2 := interleave s1
    let pte0 := readBytes s2.mem a0.toNat 4
    inRam s.cfg a1 4 = true ∧ pteInvalid pte1 = false ∧
      ((pteLeaf pte1 = true ∧ permitted pte1 t eff s1 = true ∧ ptePpn0 pte1 = 0#10 ∧
          pa = ptePpn1 pte1 ++ va.extractLsb' 0 22 ∧ s' = updateAD a1 pte1 t s1) ∨
        (pteLeaf pte1 = false ∧ inRam s.cfg a0 4 = true ∧ pteInvalid pte0 = false ∧ pteLeaf pte0 = true ∧
          permitted pte0 t eff s2 = true ∧ pa = ptePpn pte0 ++ va.extractLsb' 0 12 ∧ s' = updateAD a0 pte0 t s2)) := by
  obtain ⟨pte, s1, h1, h2⟩ := andThen_ok h
  obtain ⟨rfl, hr, rfl⟩ := pteRead_ok h1
  split at h2
  · cases h2
  · rename_i hv
    refine ⟨hr, by simpa using hv, ?_⟩
    split at h2
    · rename_i hl
      split at h2
      · cases h2
      · rename_i hp
        split at h2
        · cases h2
        · rename_i hz; cases h2; exact .inl ⟨hl, by simpa using hp, by simpa using hz, rfl, rfl⟩
    · rename_i hl
      obtain ⟨pte', s2, h3, h4⟩ := andThen_ok h2
      obtain ⟨rfl, hr', rfl⟩ := pteRead_ok h3
      split at h4
      · cases h4
      · rename_i hv'
        split at h4
        · cases h4
        · rename_i hl'
          split at h4
          · cases h4
          · rename_i hp'
            cases h4
            exact .inr ⟨by simpa using hl, by simpa using hr', by simpa using hv', by simpa using hl',
              by simpa using hp', rfl, rfl⟩

/-- A walk that raises has made no write, reports the virtual address, and raises the page fault or the access fault of
its access type; the state is that of its last read (R123, R124). -/
theorem walk_raise {va : Word} {t : AccessType} {eff : Priv} {s : State} {e : Exception} {tv : Word} {s' : State}
    (h : walk va t eff s = .raise e tv s') :
    (s' = s ∨ s' = interleave s ∨ s' = interleave (interleave s)) ∧ tv = va ∧ (e = pageFault t ∨ e = accessFault t) := by
  rcases andThen_raise h with h1 | ⟨pte, s1, h1, h2⟩
  · obtain ⟨rfl, rfl, rfl⟩ := pteRead_raise h1; exact ⟨.inl rfl, rfl, .inr rfl⟩
  · obtain ⟨rfl, -, -⟩ := pteRead_ok h1
    split at h2
    · cases h2; exact ⟨.inr (.inl rfl), rfl, .inl rfl⟩
    · split at h2
      · split at h2
        · cases h2; exact ⟨.inr (.inl rfl), rfl, .inl rfl⟩
        · split at h2
          · cases h2; exact ⟨.inr (.inl rfl), rfl, .inl rfl⟩
          · cases h2
      · rcases andThen_raise h2 with h3 | ⟨pte', s2, h3, h4⟩
        · obtain ⟨rfl, rfl, rfl⟩ := pteRead_raise h3; exact ⟨.inr (.inl rfl), rfl, .inr rfl⟩
        · obtain ⟨rfl, -, -⟩ := pteRead_ok h3
          split at h4
          · cases h4; exact ⟨.inr (.inr rfl), rfl, .inl rfl⟩
          · split at h4
            · cases h4; exact ⟨.inr (.inr rfl), rfl, .inl rfl⟩
            · split at h4
              · cases h4; exact ⟨.inr (.inr rfl), rfl, .inl rfl⟩
              · cases h4

/-- Where translation is off, the address is the physical address and nothing changes (R120). -/
theorem translate_bare {va : Word} {t : AccessType} {s : State}
    (h : satpMode s = false ∨ effPriv t s = .machine) : translate va t s = .ok (va.zeroExtend 34) s := by
  unfold translate
  rcases h with h | h <;> simp [h]

/-- What a translation that succeeds can do: nothing (bare, or a TLB hit), or a walk and perhaps a TLB fill (R120). -/
theorem translate_ok {va : Word} {t : AccessType} {s : State} {pa : PhysAddr} {s' : State}
    (h : translate va t s = .ok pa s') :
    s' = s ∨ ∃ s1, walk va t (effPriv t s) s = .ok pa s1 ∧ s' = tlbFill va t pa s1 := by
  simp only [translate] at h
  split at h
  · cases h; exact .inl rfl
  · split at h
    · cases h; exact .inl rfl
    · obtain ⟨pa', s1, h1, h2⟩ := andThen_ok h
      cases h2; exact .inr ⟨s1, h1, rfl⟩

/-- What a translation that raises can do (R123, R124). -/
theorem translate_raise {va : Word} {t : AccessType} {s : State} {e : Exception} {tv : Word} {s' : State}
    (h : translate va t s = .raise e tv s') :
    (s' = s ∨ s' = interleave s ∨ s' = interleave (interleave s)) ∧ tv = va ∧ (e = pageFault t ∨ e = accessFault t) := by
  simp only [translate] at h
  split at h
  · cases h
  · split at h
    · cases h
    · rcases andThen_raise h with h1 | ⟨pa, s1, -, h2⟩
      · exact walk_raise h1
      · cases h2

/-- The frame of translation: a translation changes none of the hart's private state but the TLB. -/
theorem translate_private {va : Word} {t : AccessType} {s : State} {pa : PhysAddr} {s' : State}
    (h : translate va t s = .ok pa s') : SamePrivate s s' := by
  rcases translate_ok h with rfl | ⟨s1, hw, rfl⟩
  · exact .refl _
  · have h1 := interleave_private s
    have h2 := interleave_private (interleave s)
    obtain ⟨-, -, ⟨-, -, -, -, rfl⟩ | ⟨-, -, -, -, -, -, rfl⟩⟩ := walk_ok hw
    · exact (h1.trans (updateAD_private _ _ _ _)).trans (tlbFill_private _ _ _ _)
    · exact ((h1.trans h2).trans (updateAD_private _ _ _ _)).trans (tlbFill_private _ _ _ _)

theorem translate_raise_private {va : Word} {t : AccessType} {s : State} {e : Exception} {tv : Word} {s' : State}
    (h : translate va t s = .raise e tv s') : SamePrivate s s' := by
  have h1 := interleave_private s
  rcases (translate_raise h).1 with rfl | rfl | rfl
  · exact .refl _
  · exact h1
  · exact h1.trans (interleave_private _)

/-! ## Devices -/

/-- What a handler call changes and leaves alone (R113). -/
theorem mmioCall_frame (acc : Config.MmioAccess) (s : State) :
    (mmioCall acc s).regs = s.regs ∧ (mmioCall acc s).pc = s.pc ∧ (mmioCall acc s).priv = s.priv ∧ (mmioCall acc s).csr = s.csr ∧
      (mmioCall acc s).tlb = s.tlb ∧ (mmioCall acc s).rsv = s.rsv ∧ (mmioCall acc s).cfg = s.cfg ∧
      (mmioCall acc s).parked = s.parked ∧ (mmioCall acc s).evTrap = s.evTrap ∧ (mmioCall acc s).agenda = s.agenda ∧
      (mmioCall acc s).interleaved = s.interleaved ∧
      (mmioCall acc s).devices = (mmioAnswer acc s).devices ∧ (mmioCall acc s).mmioLog = acc :: s.mmioLog := by
  refine ⟨?_, ?_, ?_, ?_, ?_, ?_, ?_, ?_, ?_, ?_, ?_, ?_, ?_⟩
  · exact foldl_deviceAct_keeps (·.regs) (fun s a => deviceAct_regs s a) _ _
  · exact foldl_deviceAct_keeps (·.pc) (fun s a => deviceAct_pc s a) _ _
  · exact foldl_deviceAct_keeps (·.priv) (fun s a => deviceAct_priv s a) _ _
  · exact foldl_deviceAct_keeps (·.csr) (fun s a => deviceAct_csr s a) _ _
  · exact foldl_deviceAct_keeps (·.tlb) (fun s a => deviceAct_tlb s a) _ _
  · exact foldl_deviceAct_keeps (·.rsv) (fun s a => deviceAct_rsv s a) _ _
  · exact foldl_deviceAct_keeps (·.cfg) (fun s a => deviceAct_cfg s a) _ _
  · exact foldl_deviceAct_keeps (·.parked) (fun s a => deviceAct_parked s a) _ _
  · exact foldl_deviceAct_keeps (·.evTrap) (fun s a => deviceAct_evTrap s a) _ _
  · exact foldl_deviceAct_keeps (·.agenda) (fun s a => deviceAct_agenda s a) _ _
  · exact foldl_deviceAct_keeps (·.interleaved) (fun s a => deviceAct_interleaved s a) _ _
  · exact foldl_deviceAct_keeps (·.devices) (fun s a => deviceAct_devices s a) _ _
  · exact foldl_deviceAct_keeps (·.mmioLog) (fun s a => deviceAct_mmioLog s a) _ _

/-! ## Data accesses -/

theorem memRead_ok {va : Word} {w : Width} {s : State} {v : Word} {s' : State} (h : memRead va w s = .ok v s') :
    aligned va w = true ∧ ∃ pa s1, translate va .load s = .ok pa s1 ∧ physRead pa w s1 = (some v, s') := by
  unfold memRead at h
  split at h
  · cases h
  · obtain ⟨pa, s1, h1, h2⟩ := andThen_ok h
    split at h2
    · cases h2; exact ⟨by simpa using ‹¬ (!aligned _ _) = true›, pa, s1, h1, ‹_›⟩
    · cases h2

theorem memWrite_ok {va : Word} {w : Width} {v : Word} {s s' : State} (h : memWrite va w v s = .ok () s') :
    aligned va w = true ∧ ∃ pa s1, translate va .store s = .ok pa s1 ∧ physWrite pa w v s1 = (true, s') := by
  unfold memWrite at h
  split at h
  · cases h
  · obtain ⟨pa, s1, h1, h2⟩ := andThen_ok h
    split at h2
    · cases h2; exact ⟨by simpa using ‹¬ (!aligned _ _) = true›, pa, s1, h1, ‹_›⟩
    · cases h2

theorem atomicAddr_ok {va : Word} {t : AccessType} {m : Exception} {s : State} {pa : PhysAddr} {s' : State}
    (h : atomicAddr va t m s = .ok pa s') :
    aligned va .word = true ∧ inRam s'.cfg pa 4 = true ∧ ∃ s1, translate va t s = .ok pa s1 ∧ s' = interleave s1 := by
  unfold atomicAddr at h
  split at h
  · cases h
  · obtain ⟨pa', s1, h1, h2⟩ := andThen_ok h
    split at h2
    · cases h2; exact ⟨by simpa using ‹¬ (!aligned _ _) = true›, by simpa using ‹inRam _ _ _ = true›, _, h1, rfl⟩
    · cases h2

theorem inRam_lt {p : Config.Params} {pa : PhysAddr} {n : Nat} (h : inRam p pa n = true) : pa.toNat < 2 ^ 32 := by
  simp only [inRam, Bool.and_eq_true, decide_eq_true_eq] at h; exact h.1.1

theorem physRead_ram {pa : PhysAddr} {w : Width} {s : State} (h : inRam s.cfg pa w.bytes = true) :
    physRead pa w s = (some (readBytes (interleave s).mem pa.toNat w.bytes), interleave s) := by
  unfold physRead; rw [if_neg (Nat.not_le.mpr (inRam_lt h)), if_pos h]

theorem physWrite_ram {pa : PhysAddr} {w : Width} {v : Word} {s : State} (h : inRam s.cfg pa w.bytes = true) :
    physWrite pa w v s = (true, ramWrite pa w.bytes v (interleave s)) := by
  unfold physWrite; rw [if_neg (Nat.not_le.mpr (inRam_lt h)), if_pos h]

/-- A load that reaches RAM: the value and the state after it (R270). -/
theorem memRead_ram {va : Word} {w : Width} {s s1 : State} {pa : PhysAddr} (ha : aligned va w = true)
    (ht : translate va .load s = .ok pa s1) (hr : inRam s1.cfg pa w.bytes = true) :
    memRead va w s = .ok (readBytes (interleave s1).mem pa.toNat w.bytes) (interleave s1) := by
  simp [memRead, ha, ht, Access.andThen, physRead_ram hr]

/-- A store that reaches RAM (R270, R323). -/
theorem memWrite_ram {va : Word} {w : Width} {v : Word} {s s1 : State} {pa : PhysAddr} (ha : aligned va w = true)
    (ht : translate va .store s = .ok pa s1) (hr : inRam s1.cfg pa w.bytes = true) :
    memWrite va w v s = .ok () (ramWrite pa w.bytes v (interleave s1)) := by
  simp [memWrite, ha, ht, Access.andThen, physWrite_ram hr]

theorem atomicAddr_ram {va : Word} {t : AccessType} {m : Exception} {s s1 : State} {pa : PhysAddr}
    (ha : aligned va .word = true) (ht : translate va t s = .ok pa s1) (hr : inRam s1.cfg pa 4 = true) :
    atomicAddr va t m s = .ok pa (interleave s1) := by
  simp [atomicAddr, ha, ht, Access.andThen, hr]

/-! ## Trap entry and return -/

/-- Where trap entry goes (R452). -/
theorem takeTrap_pc (p : Priv) (c tv ev : Word) (s : State) :
    (takeTrap p c tv ev s).pc =
      if (s.csr.tvec.get p).getLsbD 0 && c.getLsbD 31 then (s.csr.tvec.get p &&& 0xFFFFFFFC#32) + (c <<< 2)
      else s.csr.tvec.get p &&& 0xFFFFFFFC#32 := by
  simp only [takeTrap, trapVectorJump, contextFlush]; split <;> rfl

/-- The TLB after trap entry: flushed exactly if the translation context changed (R134). -/
theorem takeTrap_tlb (p : Priv) (c tv ev : Word) (s : State) :
    (takeTrap p c tv ev s).tlb
      = if translationContext (takeTrap p c tv ev s) = translationContext s then s.tlb else [] := by
  simp only [takeTrap, trapVectorJump, contextFlush]
  split
  · rename_i h; exact (if_pos h).symm
  · rename_i h; exact (if_neg h).symm

/-- The TLB after a trap return (R134). -/
theorem trapReturn_tlb (x : Priv) (s : State) :
    (trapReturn x s).tlb = if translationContext (trapReturn x s) = translationContext s then s.tlb else [] := by
  simp only [trapReturn, selfSignal, contextFlush]
  split
  · rename_i h; exact (if_pos h).symm
  · rename_i h; exact (if_neg h).symm

/-- A bank read after a write of one of its elements. -/
theorem Banked.get_set (b : Banked) (p q : Priv) (v : Word) : (b.set p v).get q = if q = p then v else b.get q := by
  cases p <;> cases q <;> rfl

/-! ## The shapes instructions share -/

theorem loadTo_ram {rd : Reg} {va : Word} {w : Width} {ext : Width → Word → Word} {len : Word} {s s1 : State}
    {pa : PhysAddr} (ha : aligned va w = true) (ht : translate va .load s = .ok pa s1)
    (hr : inRam s1.cfg pa w.bytes = true) :
    loadTo rd va w ext len s
      = .next (advance len (writeReg rd (ext w (readBytes (interleave s1).mem pa.toNat w.bytes)) (interleave s1))) := by
  simp [loadTo, memRead_ram ha ht hr, Access.finish]

theorem storeTo_ram {va : Word} {w : Width} {v : Word} {len : Word} {s s1 : State} {pa : PhysAddr}
    (ha : aligned va w = true) (ht : translate va .store s = .ok pa s1) (hr : inRam s1.cfg pa w.bytes = true) :
    storeTo va w v len s = .next (advance len (ramWrite pa w.bytes v (interleave s1))) := by
  simp [storeTo, memWrite_ram ha ht hr, Access.finish]

theorem amo_ram {f : Word → Word → Word} {rd rs2 rs1 : Reg} {s s1 : State} {pa : PhysAddr}
    (ha : aligned (readReg s rs1) .word = true) (ht : translate (readReg s rs1) .store s = .ok pa s1)
    (hr : inRam s1.cfg pa 4 = true) :
    amo f rd rs2 rs1 s
      = .next (advance 4#32 (writeReg rd (readBytes (interleave s1).mem pa.toNat 4)
          (ramWrite pa 4 (f (readBytes (interleave s1).mem pa.toNat 4) (readReg s rs2)) (interleave s1)))) := by
  simp [amo, atomicAddr_ram ha ht hr, Access.finish]

theorem loadTo_next (rd : Reg) (va : Word) (w : Width) (ext : Width → Word → Word) (len : Word) (s : State) :
    (∃ v s1, memRead va w s = .ok v s1 ∧ loadTo rd va w ext len s = .next (advance len (writeReg rd (ext w v) s1))) ∨
      ∃ e tv s1, memRead va w s = .raise e tv s1 ∧ loadTo rd va w ext len s = .next (raiseException e tv s1) :=
  finish_next _ _

theorem storeTo_next (va : Word) (w : Width) (v len : Word) (s : State) :
    (∃ u s1, memWrite va w v s = .ok u s1 ∧ storeTo va w v len s = .next (advance len s1)) ∨
      ∃ e tv s1, memWrite va w v s = .raise e tv s1 ∧ storeTo va w v len s = .next (raiseException e tv s1) :=
  finish_next _ _

/-- A CSR instruction is an illegal instruction or an access (R33, R410). -/
theorem csrInstruction_next (a : CsrAddr) (op : CsrOp) (src : Word) (rd : Reg) (insn : Word) (s : State) :
    (csrCheck a op s.priv = none ∧
        csrInstruction a op src rd insn s = .next (raiseException .illegalInstruction insn s)) ∨
      ∃ row, csrCheck a op s.priv = some row ∧
        csrInstruction a op src rd insn s = writeBack rd (csrValue row s) 4#32 (csrAccess row op src s) := by
  unfold csrInstruction
  cases h : csrCheck a op s.priv with
  | none => exact .inl ⟨rfl, rfl⟩
  | some row => exact .inr ⟨row, rfl, rfl⟩

/-- The frame of a CSR access: the CSR file, the TLB and the two self-signal flags. -/
theorem csrAccess_frame (row : CsrRow) (op : CsrOp) (src : Word) (s : State) :
    csrAccess row op src s =
      { s with csr := (csrAccess row op src s).csr, tlb := (csrAccess row op src s).tlb,
               evInt := (csrAccess row op src s).evInt, waitEvent := (csrAccess row op src s).waitEvent } := by
  unfold csrAccess
  split
  · rfl
  · cases row.effect <;> simp only [csrEffect]
    · simp only [selfSignal, contextFlush]; split <;> rfl
    · rfl
    · rfl

/-- What a pass of the hart loop can do (R470). -/
theorem hartStep_cases (s : State) :
    (s.parked = true ∧ s.waitEvent = true ∧ hartStep s = .next s) ∨
      (∃ i, boundaryInterrupt s = some i ∧ hartStep s = .next (takeInterrupt i s.pc (wake s))) ∨
      (boundaryInterrupt s = none ∧ hartStep s = rearmOutcome (runInstruction { wake s with parked := false })) := by
  unfold hartStep
  by_cases h : (s.parked && s.waitEvent) = true
  · simp only [Bool.and_eq_true] at h; exact .inl ⟨h.1, h.2, by simp [h.1, h.2]⟩
  · right
    simp only [h]
    cases hb : boundaryInterrupt s with
    | none => exact .inr ⟨rfl, by simp⟩
    | some i => exact .inl ⟨i, rfl, by simp⟩

end Sys2Proof.Machine
end

