-- ==== Sys2Proof/Laws/PerInstr.lean ====
section
/-! SUPPORT. The statement family Quadrant: the low two bits of an encoding tell its length (R171). -/

namespace Sys2Proof.Laws.Quadrant

/-- A 32-bit encoding has 11 in its low two bits, a 16-bit encoding has not: what fetch looks at (R170, R171). -/
def Statement (i : Instr) : Prop :=
  match encode i with
  | .half h => cQuadrant h ≠ 3#2
  | .word w => w.extractLsb' 0 2 = 3#2

/-- The low bits of a concatenation are those of its last part. -/
theorem low_append {n m : Nat} (a : BitVec n) (b : BitVec m) (h : 2 ≤ m) :
    (a ++ b).extractLsb' 0 2 = b.extractLsb' 0 2 := by
  apply BitVec.eq_of_getLsbD_eq
  intro i hi
  simp only [BitVec.getLsbD_extractLsb', BitVec.getLsbD_append, hi, decide_true, Bool.true_and, Nat.zero_add]
  rw [if_pos (by omega)]

/-- A 32-bit format that ends in an opcode with 11 in its low bits. -/
theorem ofOpcode {n : Nat} (a : BitVec n) (op : BitVec 7) (h : op.extractLsb' 0 2 = 3#2) :
    (a ++ op).extractLsb' 0 2 = 3#2 := (low_append a op (Nat.le_of_ble_eq_true rfl)).trans h

/-- A 16-bit format that ends in a quadrant other than 11. -/
theorem ofQuadrant {n : Nat} (a : BitVec n) (q : BitVec 2) (h : q.extractLsb' 0 2 ≠ 3#2) :
    (a ++ q).extractLsb' 0 2 ≠ 3#2 := fun e => h ((low_append a q (Nat.le_of_ble_eq_true rfl)).symm.trans e)

theorem quadrant0 : (0#2).extractLsb' 0 2 ≠ 3#2 := by decide

theorem quadrant1 : (1#2).extractLsb' 0 2 ≠ 3#2 := by decide

theorem quadrant2 : (2#2).extractLsb' 0 2 ≠ 3#2 := by decide

theorem lui (rd : Reg) (imm : BitVec 20) : Statement (.lui rd imm) := ofOpcode _ _ rfl

theorem auipc (rd : Reg) (imm : BitVec 20) : Statement (.auipc rd imm) := ofOpcode _ _ rfl

theorem jal (rd : Reg) (off : BitVec 21) : Statement (.jal rd off) := ofOpcode _ _ rfl

theorem jalr (rd : Reg) (rs1 : Reg) (imm : BitVec 12) : Statement (.jalr rd rs1 imm) := ofOpcode _ _ rfl

theorem beq (rs1 : Reg) (rs2 : Reg) (off : BitVec 13) : Statement (.beq rs1 rs2 off) := ofOpcode _ _ rfl

theorem bne (rs1 : Reg) (rs2 : Reg) (off : BitVec 13) : Statement (.bne rs1 rs2 off) := ofOpcode _ _ rfl

theorem blt (rs1 : Reg) (rs2 : Reg) (off : BitVec 13) : Statement (.blt rs1 rs2 off) := ofOpcode _ _ rfl

theorem bge (rs1 : Reg) (rs2 : Reg) (off : BitVec 13) : Statement (.bge rs1 rs2 off) := ofOpcode _ _ rfl

theorem bltu (rs1 : Reg) (rs2 : Reg) (off : BitVec 13) : Statement (.bltu rs1 rs2 off) := ofOpcode _ _ rfl

theorem bgeu (rs1 : Reg) (rs2 : Reg) (off : BitVec 13) : Statement (.bgeu rs1 rs2 off) := ofOpcode _ _ rfl

theorem lb (rd : Reg) (rs1 : Reg) (imm : BitVec 12) : Statement (.lb rd rs1 imm) := ofOpcode _ _ rfl

theorem lh (rd : Reg) (rs1 : Reg) (imm : BitVec 12) : Statement (.lh rd rs1 imm) := ofOpcode _ _ rfl

theorem lw (rd : Reg) (rs1 : Reg) (imm : BitVec 12) : Statement (.lw rd rs1 imm) := ofOpcode _ _ rfl

theorem lbu (rd : Reg) (rs1 : Reg) (imm : BitVec 12) : Statement (.lbu rd rs1 imm) := ofOpcode _ _ rfl

theorem lhu (rd : Reg) (rs1 : Reg) (imm : BitVec 12) : Statement (.lhu rd rs1 imm) := ofOpcode _ _ rfl

theorem sb (rs2 : Reg) (rs1 : Reg) (imm : BitVec 12) : Statement (.sb rs2 rs1 imm) := ofOpcode _ _ rfl

theorem sh (rs2 : Reg) (rs1 : Reg) (imm : BitVec 12) : Statement (.sh rs2 rs1 imm) := ofOpcode _ _ rfl

theorem sw (rs2 : Reg) (rs1 : Reg) (imm : BitVec 12) : Statement (.sw rs2 rs1 imm) := ofOpcode _ _ rfl

theorem addi (rd : Reg) (rs1 : Reg) (imm : BitVec 12) : Statement (.addi rd rs1 imm) := ofOpcode _ _ rfl

theorem slti (rd : Reg) (rs1 : Reg) (imm : BitVec 12) : Statement (.slti rd rs1 imm) := ofOpcode _ _ rfl

theorem sltiu (rd : Reg) (rs1 : Reg) (imm : BitVec 12) : Statement (.sltiu rd rs1 imm) := ofOpcode _ _ rfl

theorem xori (rd : Reg) (rs1 : Reg) (imm : BitVec 12) : Statement (.xori rd rs1 imm) := ofOpcode _ _ rfl

theorem ori (rd : Reg) (rs1 : Reg) (imm : BitVec 12) : Statement (.ori rd rs1 imm) := ofOpcode _ _ rfl

theorem andi (rd : Reg) (rs1 : Reg) (imm : BitVec 12) : Statement (.andi rd rs1 imm) := ofOpcode _ _ rfl

theorem slli (rd : Reg) (rs1 : Reg) (shamt : BitVec 5) : Statement (.slli rd rs1 shamt) := ofOpcode _ _ rfl

theorem srli (rd : Reg) (rs1 : Reg) (shamt : BitVec 5) : Statement (.srli rd rs1 shamt) := ofOpcode _ _ rfl

theorem srai (rd : Reg) (rs1 : Reg) (shamt : BitVec 5) : Statement (.srai rd rs1 shamt) := ofOpcode _ _ rfl

theorem add (rd : Reg) (rs1 : Reg) (rs2 : Reg) : Statement (.add rd rs1 rs2) := ofOpcode _ _ rfl

theorem sub (rd : Reg) (rs1 : Reg) (rs2 : Reg) : Statement (.sub rd rs1 rs2) := ofOpcode _ _ rfl

theorem sll (rd : Reg) (rs1 : Reg) (rs2 : Reg) : Statement (.sll rd rs1 rs2) := ofOpcode _ _ rfl

theorem slt (rd : Reg) (rs1 : Reg) (rs2 : Reg) : Statement (.slt rd rs1 rs2) := ofOpcode _ _ rfl

theorem sltu (rd : Reg) (rs1 : Reg) (rs2 : Reg) : Statement (.sltu rd rs1 rs2) := ofOpcode _ _ rfl

theorem xor (rd : Reg) (rs1 : Reg) (rs2 : Reg) : Statement (.xor rd rs1 rs2) := ofOpcode _ _ rfl

theorem srl (rd : Reg) (rs1 : Reg) (rs2 : Reg) : Statement (.srl rd rs1 rs2) := ofOpcode _ _ rfl

theorem sra (rd : Reg) (rs1 : Reg) (rs2 : Reg) : Statement (.sra rd rs1 rs2) := ofOpcode _ _ rfl

theorem or (rd : Reg) (rs1 : Reg) (rs2 : Reg) : Statement (.or rd rs1 rs2) := ofOpcode _ _ rfl

theorem and (rd : Reg) (rs1 : Reg) (rs2 : Reg) : Statement (.and rd rs1 rs2) := ofOpcode _ _ rfl

theorem fence (fm : BitVec 4) (pred : BitVec 4) (succ : BitVec 4) (rs1 : Reg) (rd : Reg) : Statement (.fence fm pred succ rs1 rd) := ofOpcode _ _ rfl

theorem fenceI (imm : BitVec 12) (rs1 : Reg) (rd : Reg) : Statement (.fenceI imm rs1 rd) := ofOpcode _ _ rfl

theorem ecall : Statement .ecall := rfl

theorem ebreak : Statement .ebreak := rfl

theorem uret : Statement .uret := rfl

theorem sret : Statement .sret := rfl

theorem mret : Statement .mret := rfl

theorem wfi : Statement .wfi := rfl

theorem sfenceVma (rs1 : Reg) (rs2 : Reg) : Statement (.sfenceVma rs1 rs2) := ofOpcode _ _ rfl

theorem csrrw (rd : Reg) (csr : CsrAddr) (rs1 : Reg) : Statement (.csrrw rd csr rs1) := ofOpcode _ _ rfl

theorem csrrs (rd : Reg) (csr : CsrAddr) (rs1 : Reg) : Statement (.csrrs rd csr rs1) := ofOpcode _ _ rfl

theorem csrrc (rd : Reg) (csr : CsrAddr) (rs1 : Reg) : Statement (.csrrc rd csr rs1) := ofOpcode _ _ rfl

theorem csrrwi (rd : Reg) (csr : CsrAddr) (uimm : BitVec 5) : Statement (.csrrwi rd csr uimm) := ofOpcode _ _ rfl

theorem csrrsi (rd : Reg) (csr : CsrAddr) (uimm : BitVec 5) : Statement (.csrrsi rd csr uimm) := ofOpcode _ _ rfl

theorem csrrci (rd : Reg) (csr : CsrAddr) (uimm : BitVec 5) : Statement (.csrrci rd csr uimm) := ofOpcode _ _ rfl

theorem mul (rd : Reg) (rs1 : Reg) (rs2 : Reg) : Statement (.mul rd rs1 rs2) := ofOpcode _ _ rfl

theorem mulh (rd : Reg) (rs1 : Reg) (rs2 : Reg) : Statement (.mulh rd rs1 rs2) := ofOpcode _ _ rfl

theorem mulhsu (rd : Reg) (rs1 : Reg) (rs2 : Reg) : Statement (.mulhsu rd rs1 rs2) := ofOpcode _ _ rfl

theorem mulhu (rd : Reg) (rs1 : Reg) (rs2 : Reg) : Statement (.mulhu rd rs1 rs2) := ofOpcode _ _ rfl

theorem div (rd : Reg) (rs1 : Reg) (rs2 : Reg) : Statement (.div rd rs1 rs2) := ofOpcode _ _ rfl

theorem divu (rd : Reg) (rs1 : Reg) (rs2 : Reg) : Statement (.divu rd rs1 rs2) := ofOpcode _ _ rfl

theorem rem (rd : Reg) (rs1 : Reg) (rs2 : Reg) : Statement (.rem rd rs1 rs2) := ofOpcode _ _ rfl

theorem remu (rd : Reg) (rs1 : Reg) (rs2 : Reg) : Statement (.remu rd rs1 rs2) := ofOpcode _ _ rfl

theorem lrW (aq : Bool) (rl : Bool) (rd : Reg) (rs1 : Reg) : Statement (.lrW aq rl rd rs1) := ofOpcode _ _ rfl

theorem scW (aq : Bool) (rl : Bool) (rd : Reg) (rs2 : Reg) (rs1 : Reg) : Statement (.scW aq rl rd rs2 rs1) := ofOpcode _ _ rfl

theorem amoswapW (aq : Bool) (rl : Bool) (rd : Reg) (rs2 : Reg) (rs1 : Reg) : Statement (.amoswapW aq rl rd rs2 rs1) := ofOpcode _ _ rfl

theorem amoaddW (aq : Bool) (rl : Bool) (rd : Reg) (rs2 : Reg) (rs1 : Reg) : Statement (.amoaddW aq rl rd rs2 rs1) := ofOpcode _ _ rfl

theorem amoxorW (aq : Bool) (rl : Bool) (rd : Reg) (rs2 : Reg) (rs1 : Reg) : Statement (.amoxorW aq rl rd rs2 rs1) := ofOpcode _ _ rfl

theorem amoandW (aq : Bool) (rl : Bool) (rd : Reg) (rs2 : Reg) (rs1 : Reg) : Statement (.amoandW aq rl rd rs2 rs1) := ofOpcode _ _ rfl

theorem amoorW (aq : Bool) (rl : Bool) (rd : Reg) (rs2 : Reg) (rs1 : Reg) : Statement (.amoorW aq rl rd rs2 rs1) := ofOpcode _ _ rfl

theorem amominW (aq : Bool) (rl : Bool) (rd : Reg) (rs2 : Reg) (rs1 : Reg) : Statement (.amominW aq rl rd rs2 rs1) := ofOpcode _ _ rfl

theorem amomaxW (aq : Bool) (rl : Bool) (rd : Reg) (rs2 : Reg) (rs1 : Reg) : Statement (.amomaxW aq rl rd rs2 rs1) := ofOpcode _ _ rfl

theorem amominuW (aq : Bool) (rl : Bool) (rd : Reg) (rs2 : Reg) (rs1 : Reg) : Statement (.amominuW aq rl rd rs2 rs1) := ofOpcode _ _ rfl

theorem amomaxuW (aq : Bool) (rl : Bool) (rd : Reg) (rs2 : Reg) (rs1 : Reg) : Statement (.amomaxuW aq rl rd rs2 rs1) := ofOpcode _ _ rfl

theorem cIllegal : Statement .cIllegal := quadrant0

theorem cAddi4spn (rd : Reg) (nzuimm : BitVec 10) : Statement (.cAddi4spn rd nzuimm) := ofQuadrant _ _ quadrant0

theorem cLw (rd : Reg) (rs1 : Reg) (uimm : BitVec 7) : Statement (.cLw rd rs1 uimm) := ofQuadrant _ _ quadrant0

theorem cSw (rs2 : Reg) (rs1 : Reg) (uimm : BitVec 7) : Statement (.cSw rs2 rs1 uimm) := ofQuadrant _ _ quadrant0

theorem cNop (imm : BitVec 6) : Statement (.cNop imm) := ofQuadrant _ _ quadrant1

theorem cAddi (rd : Reg) (imm : BitVec 6) : Statement (.cAddi rd imm) := ofQuadrant _ _ quadrant1

theorem cJal (off : BitVec 12) : Statement (.cJal off) := ofQuadrant _ _ quadrant1

theorem cLi (rd : Reg) (imm : BitVec 6) : Statement (.cLi rd imm) := ofQuadrant _ _ quadrant1

theorem cAddi16sp (nzimm : BitVec 10) : Statement (.cAddi16sp nzimm) := ofQuadrant _ _ quadrant1

theorem cLui (rd : Reg) (nzimm : BitVec 6) : Statement (.cLui rd nzimm) := ofQuadrant _ _ quadrant1

theorem cSrli (rd : Reg) (shamt : BitVec 5) : Statement (.cSrli rd shamt) := ofQuadrant _ _ quadrant1

theorem cSrai (rd : Reg) (shamt : BitVec 5) : Statement (.cSrai rd shamt) := ofQuadrant _ _ quadrant1

theorem cAndi (rd : Reg) (imm : BitVec 6) : Statement (.cAndi rd imm) := ofQuadrant _ _ quadrant1

theorem cSub (rd : Reg) (rs2 : Reg) : Statement (.cSub rd rs2) := ofQuadrant _ _ quadrant1

theorem cXor (rd : Reg) (rs2 : Reg) : Statement (.cXor rd rs2) := ofQuadrant _ _ quadrant1

theorem cOr (rd : Reg) (rs2 : Reg) : Statement (.cOr rd rs2) := ofQuadrant _ _ quadrant1

theorem cAnd (rd : Reg) (rs2 : Reg) : Statement (.cAnd rd rs2) := ofQuadrant _ _ quadrant1

theorem cJ (off : BitVec 12) : Statement (.cJ off) := ofQuadrant _ _ quadrant1

theorem cBeqz (rs1 : Reg) (off : BitVec 9) : Statement (.cBeqz rs1 off) := ofQuadrant _ _ quadrant1

theorem cBnez (rs1 : Reg) (off : BitVec 9) : Statement (.cBnez rs1 off) := ofQuadrant _ _ quadrant1

theorem cSlli (rd : Reg) (shamt : BitVec 5) : Statement (.cSlli rd shamt) := ofQuadrant _ _ quadrant2

theorem cLwsp (rd : Reg) (uimm : BitVec 8) : Statement (.cLwsp rd uimm) := ofQuadrant _ _ quadrant2

theorem cJr (rs1 : Reg) : Statement (.cJr rs1) := ofQuadrant _ _ quadrant2

theorem cMv (rd : Reg) (rs2 : Reg) : Statement (.cMv rd rs2) := ofQuadrant _ _ quadrant2

theorem cEbreak : Statement .cEbreak := quadrant2

theorem cJalr (rs1 : Reg) : Statement (.cJalr rs1) := ofQuadrant _ _ quadrant2

theorem cAdd (rd : Reg) (rs2 : Reg) : Statement (.cAdd rd rs2) := ofQuadrant _ _ quadrant2

theorem cSwsp (rs2 : Reg) (uimm : BitVec 8) : Statement (.cSwsp rs2 uimm) := ofQuadrant _ _ quadrant2

end Sys2Proof.Laws.Quadrant
end

