-- ==== Sys2Proof/Tests/Slice0.lean ====
section
/-! SUPPORT. The model's own tests: each encoding of the spec decoded once, ill-formed terms refused, a few rows of
spec/95_test_vectors.md, and for each obligation with hypotheses a state and operands that meet them. -/

namespace Sys2Proof.Tests

open Sys2Proof.Machine

/-! ## Decoding: words written out from the encodings of the spec (fields separated by underscores) -/

def decodesTo (l : List (Nat × Nat × Instr)) : Bool :=
  l.all fun t => decide (decodeTableWord t.1 t.2.1 = some t.2.2)

/-- R201, R202, R203 to R211; words of R201 to R211 and of 95_test_vectors.md §1. -/
theorem test_decode_immediate : decodesTo
    [ (32, 0b11111111111111111111_00101_0110111, .lui 5 0xFFFFF), (32, 0x00001317, .auipc 6 1),
      (32, 0x02A00093, .addi 1 0 42), (32, 0xFFF0A193, .slti 3 1 0xFFF), (32, 0xFFF0B193, .sltiu 3 1 0xFFF),
      (32, 0xFFF0C193, .xori 3 1 0xFFF), (32, 0x7000E193, .ori 3 1 0x700), (32, 0x0FF0F193, .andi 3 1 0xFF),
      (32, 0b0000000_11111_00001_001_00011_0010011, .slli 3 1 31),
      (32, 0b0000000_11111_00001_101_00011_0010011, .srli 3 1 31), (32, 0x4040D193, .srai 3 1 4) ] = true := by
  decide

/-- R212 to R221 (95_test_vectors.md §1). -/
theorem test_decode_register : decodesTo
    [ (32, 0x002081B3, .add 3 1 2), (32, 0x402081B3, .sub 3 1 2), (32, 0x002091B3, .sll 3 1 2),
      (32, 0x0020A1B3, .slt 3 1 2), (32, 0x0020B1B3, .sltu 3 1 2), (32, 0x0020C1B3, .xor 3 1 2),
      (32, 0b0000000_00010_00001_101_00011_0110011, .srl 3 1 2), (32, 0b0100000_00010_00001_101_00011_0110011, .sra 3 1 2),
      (32, 0x0020E1B3, .or 3 1 2), (32, 0x0020F1B3, .and 3 1 2) ] = true := by
  decide

/-- R251 to R258; offsets at both ends of their range. -/
theorem test_decode_control : decodesTo
    [ (32, 0x7FFFF0EF, .jal 1 0xFFFFE), (32, 0x800000EF, .jal 1 0x100000), (32, 0xFFD280E7, .jalr 1 5 0xFFD),
      (32, 0x7E000FE3, .beq 0 0 0xFFE), (32, 0xFE209CE3, .bne 1 2 0x1FF8), (32, 0x0020C863, .blt 1 2 16),
      (32, 0x0020D863, .bge 1 2 16), (32, 0x0020E863, .bltu 1 2 16), (32, 0x8020F063, .bgeu 1 2 0x1000) ] = true := by
  decide

/-- R271 to R278, R290, R291. -/
theorem test_decode_memory : decodesTo
    [ (32, 0x00108183, .lb 3 1 1), (32, 0x00209183, .lh 3 1 2), (32, 0xFFC0A183, .lw 3 1 0xFFC), (32, 0x0010C183, .lbu 3 1 1),
      (32, 0x0000D183, .lhu 3 1 0), (32, 0x002081A3, .sb 2 1 3), (32, 0x00209123, .sh 2 1 2), (32, 0xFE20AE23, .sw 2 1 0xFFC),
      (32, 0x8330000F, .fence 8 3 3 0 0), (32, 0b111111111111_00001_001_00010_0001111, .fenceI 0xFFF 1 2) ] = true := by
  decide

/-- R302 to R309. -/
theorem test_decode_muldiv : decodesTo
    [ (32, 0x022081B3, .mul 3 1 2), (32, 0b0000001_00010_00001_001_00011_0110011, .mulh 3 1 2), (32, 0x0220A1B3, .mulhsu 3 1 2),
      (32, 0x0220B1B3, .mulhu 3 1 2), (32, 0x020140B3, .div 1 2 0), (32, 0x0220D1B3, .divu 3 1 2),
      (32, 0x0220E1B3, .rem 3 1 2), (32, 0x0220F1B3, .remu 3 1 2) ] = true := by
  decide

/-- R326 to R337; aq and rl are bits 26 and 25. -/
theorem test_decode_atomic : decodesTo
    [ (32, 0x1600A1AF, .lrW true true 3 1), (32, 0x18C523AF, .scW false false 7 12 10), (32, 0x08B5232F, .amoswapW false false 6 11 10),
      (32, 0b00000_0_1_00010_00001_010_00011_0101111, .amoaddW false true 3 2 1), (32, 0x20B5232F, .amoxorW false false 6 11 10),
      (32, 0x60B5232F, .amoandW false false 6 11 10), (32, 0x40B5232F, .amoorW false false 6 11 10),
      (32, 0b10000_1_0_00010_00001_010_00011_0101111, .amominW true false 3 2 1), (32, 0xA020A1AF, .amomaxW false false 3 2 1),
      (32, 0xC020A1AF, .amominuW false false 3 2 1), (32, 0xE020A1AF, .amomaxuW false false 3 2 1) ] = true := by
  decide

/-- R401 to R408, R412 to R417. -/
theorem test_decode_system : decodesTo
    [ (32, 0x00000073, .ecall), (32, 0x00100073, .ebreak), (32, 0x00200073, .uret), (32, 0x10200073, .sret), (32, 0x30200073, .mret),
      (32, 0x10500073, .wfi), (32, 0x12628073, .sfenceVma 5 6), (32, 0x340312F3, .csrrw 5 0x340 6), (32, 0xF14022F3, .csrrs 5 0xF14 0),
      (32, 0x300332F3, .csrrc 5 0x300 6), (32, 0x340FD073, .csrrwi 0 0x340 31), (32, 0x30046073, .csrrsi 0 0x300 8),
      (32, 0x30047073, .csrrci 0 0x300 8) ] = true := by
  decide

/-- Quadrants 0 and 1: R352 to R370, R379. -/
theorem test_decode_compressed_low : decodesTo
    [ (16, 0x0000, .cIllegal), (16, 0x1FFC, .cAddi4spn 15 1020), (16, 0x5C7C, .cLw 15 8 124), (16, 0xC22C, .cSw 11 12 64),
      (16, 0x0001, .cNop 0), (16, 0x02FD, .cAddi 5 31), (16, 0x3001, .cJal 0x800), (16, 0x2FFD, .cJal 0x7FE), (16, 0x52FD, .cLi 5 0x3F),
      (16, 0x617D, .cAddi16sp 496), (16, 0x62FD, .cLui 5 31), (16, 0x8011, .cSrli 8 4), (16, 0x8411, .cSrai 8 4),
      (16, 0x9841, .cAndi 8 0x30), (16, 0x8C05, .cSub 8 9), (16, 0x8C25, .cXor 8 9), (16, 0x8C45, .cOr 8 9), (16, 0x8C65, .cAnd 8 9),
      (16, 0xBFF5, .cJ 0xFFC), (16, 0xD001, .cBeqz 8 0x100), (16, 0xECFD, .cBnez 9 254) ] = true := by
  decide

/-- Quadrant 2: R371 to R378. -/
theorem test_decode_compressed_high : decodesTo
    [ (16, 0x028E, .cSlli 5 3), (16, 0x52FE, .cLwsp 5 252), (16, 0x8082, .cJr 1), (16, 0x829A, .cMv 5 6),
      (16, 0b100_1_00000_00000_10, .cEbreak), (16, 0b100_1_00101_00000_10, .cJalr 5), (16, 0x929A, .cAdd 5 6),
      (16, 0xDF9A, .cSwsp 6 252) ] = true := by
  decide

/-- Reserved and absent encodings are refused, not read as a neighbour (R179, R182, R223, R338, R379, R419). -/
theorem test_decode_illegal :
    [ (32, 0x02009193), (32, 0x402091B3), (32, 0x000110E7), (32, 0x0020A863), (32, 0x0000B183), (32, 0x0020B023), (32, 0x0000200F),
      (32, 0x1010A1AF), (32, 0x12628173), (16, 0x8002), (16, 0x9C41), (16, 0x6081), (16, 0x6101), (16, 0x4002), (16, 0x2000) ].all
      (fun t => (decodeTableWord t.1 t.2).isNone) = true := by
  decide

/-! ## WellFormed: one ill-formed term for each check, refused -/

theorem test_wellFormed_refuses :
    [ Instr.jal 1 1, .beq 1 2 1, .bne 1 2 3, .blt 1 2 5, .bge 1 2 7, .bltu 1 2 9, .bgeu 1 2 0x1FFF, .cAddi4spn 7 4, .cAddi4spn 8 2,
      .cAddi4spn 8 0, .cLw 16 8 0, .cLw 8 7 0, .cLw 8 8 2, .cSw 0 8 0, .cSw 8 16 0, .cSw 8 8 1, .cAddi 0 1, .cJal 1, .cAddi16sp 8,
      .cAddi16sp 0, .cLui 2 1, .cLui 5 0, .cSrli 7 1, .cSrai 16 1, .cAndi 1 1, .cSub 1 8, .cSub 8 1, .cXor 1 8, .cXor 8 1, .cOr 1 8,
      .cOr 8 1, .cAnd 1 8, .cAnd 8 1, .cJ 1, .cBeqz 7 2, .cBeqz 8 1, .cBnez 16 2, .cBnez 8 1, .cLwsp 0 4, .cLwsp 5 2, .cJr 0,
      .cMv 5 0, .cJalr 0, .cAdd 5 0, .cSwsp 5 2 ].all (fun i => !i.wellFormed) = true := by
  decide

theorem test_wellFormed_accepts :
    [ Instr.jal 1 0xFFFFE, .beq 1 2 0xFFE, .cAddi4spn 15 1020, .cLw 15 8 124, .cSw 8 15 124, .cAddi 31 0, .cAddi16sp 0x200, .cLui 31 1,
      .cBeqz 8 0x100, .cLwsp 31 252, .cJr 31, .cMv 0 31, .cAdd 0 31, .cSwsp 0 252, .lui 0 0 ].all Instr.wellFormed = true := by
  decide

/-! ## One step: rows of spec/95_test_vectors.md -/

/-- The reset state with some registers set. -/
def ready (regs : List (Reg × Word)) : State := regs.foldl (fun s p => writeReg p.1 p.2 s) State.reset

/-- The state after one step that runs the instruction whose bits are `w`. -/
def stepWord (nbits w : Nat) (s : State) : Option State :=
  match step (s.withFetchWord nbits w) with
  | .next t => some t
  | _ => none

/-- Register `r` and pc after that step. -/
def result (r : Reg) (nbits w : Nat) (s : State) : Option (Word × Word) :=
  (stepWord nbits w s).map fun t => (readReg t r, t.pc)

/-- The word at `a` and the reservation after that step. -/
def stored (a : Nat) (nbits w : Nat) (s : State) : Option (Word × Option PhysAddr) :=
  (stepWord nbits w s).map fun t => (readBytes t.mem a 4, t.rsv)

/-- mcause, mtval, mepc, pc after that step. -/
def trapped (nbits w : Nat) (s : State) : Option (Word × Word × Word × Word) :=
  (stepWord nbits w s).map fun t => (t.csr.cause.machine, t.csr.tval.machine, t.csr.epc.machine, t.pc)

/-- 95_test_vectors.md §1: wraps, signs, x0, shifts by all but one place. -/
theorem test_integer_steps :
    result 3 32 0x00108193 (ready [(1, 0x7FFFFFFF#32)]) = some (0x80000000#32, 0x80000004#32) ∧
    result 0 32 0x00508013 (ready [(1, 7#32)]) = some (0#32, 0x80000004#32) ∧
    result 3 32 0xFFF0B193 (ready [(1, 0xFFFFFFFE#32)]) = some (1#32, 0x80000004#32) ∧
    result 3 32 0x41F0D193 (ready [(1, 0x80000000#32)]) = some (0xFFFFFFFF#32, 0x80000004#32) ∧
    result 3 32 0xFFFFF197 State.reset = some (0x7FFFF000#32, 0x80000004#32) ∧
    result 3 32 0x002091B3 (ready [(1, 1#32), (2, 0x21#32)]) = some (2#32, 0x80000004#32) ∧
    result 3 32 0x402081B3 (ready [(1, 0#32), (2, 1#32)]) = some (0xFFFFFFFF#32, 0x80000004#32) ∧
    result 3 32 0x0020A1B3 (ready [(1, 0x80000000#32), (2, 0x7FFFFFFF#32)]) = some (1#32, 0x80000004#32) := by
  decide

/-- The same, at pc 0x80000100. -/
def at100 (regs : List (Reg × Word)) : State := { ready regs with pc := 0x80000100#32 }

/-- 95_test_vectors.md §2, at pc 0x80000100: links, the link register as base, signs, and both outcomes. -/
theorem test_control_steps :
    result 1 32 0x800000EF (at100 []) = some (0x80000104#32, 0x7FF00100#32) ∧
    result 1 32 0x000080E7 (at100 [(1, 0x80000300#32)]) = some (0x80000104#32, 0x80000300#32) ∧
    result 0 32 0xFFC08067 (at100 [(1, 0x80000002#32)]) = some (0#32, 0x7FFFFFFE#32) ∧
    result 0 32 0x0020C863 (at100 [(1, 0xFFFFFFFF#32), (2, 0#32)]) = some (0#32, 0x80000110#32) ∧
    result 0 32 0x0020E863 (at100 [(1, 0xFFFFFFFF#32), (2, 0#32)]) = some (0#32, 0x80000104#32) ∧
    result 0 32 0x0020D863 (at100 [(1, 0x80000000#32), (2, 0#32)]) = some (0#32, 0x80000104#32) := by
  decide

/-- The examples of R302 to R309 and the table of R310. -/
theorem test_muldiv_steps :
    result 3 32 0x0220C1B3 (ready [(1, 0x80000000#32), (2, 0xFFFFFFFF#32)]) = some (0x80000000#32, 0x80000004#32) ∧
    result 3 32 0x0220E1B3 (ready [(1, 0xFFFFFFF9#32), (2, 2#32)]) = some (0xFFFFFFFF#32, 0x80000004#32) ∧
    result 3 32 0x0220E1B3 (ready [(1, 0xFFFFFFF9#32), (2, 0#32)]) = some (0xFFFFFFF9#32, 0x80000004#32) ∧
    result 3 32 0x0220D1B3 (ready [(1, 0xFFFFFFFF#32), (2, 2#32)]) = some (0x7FFFFFFF#32, 0x80000004#32) ∧
    result 3 32 0x0220F1B3 (ready [(1, 0xFFFFFFFF#32), (2, 16#32)]) = some (15#32, 0x80000004#32) := by
  decide

/-- 95_test_vectors.md §5, at pc 0x80000100. -/
theorem test_compressed_steps :
    result 2 16 0x7101 (at100 [(2, 0x80002000#32)]) = some (0x80001E00#32, 0x80000102#32) ∧
    result 5 16 0x7281 (at100 []) = some (0xFFFE0000#32, 0x80000102#32) ∧
    result 8 16 0x8411 (at100 [(8, 0x80000010#32)]) = some (0xF8000001#32, 0x80000102#32) ∧
    result 1 16 0x9082 (at100 [(1, 0x80000400#32)]) = some (0x80000102#32, 0x80000400#32) ∧
    result 0 16 0x8282 (at100 [(5, 0x80000401#32)]) = some (0#32, 0x80000400#32) := by
  decide

/-- RAM holds CAFEBABE at 0x80001000; x1 points to it, x2 is 0x12345678 (95_test_vectors.md §3). -/
def loaded : State :=
  { ready [(1, 0x80001000#32), (2, 0x12345678#32)] with mem := writeBytes 0x80001000 0xCAFEBABE#32 [] 4 }

/-- Sign and zero extension, byte order, partial stores, misalignment, no memory. -/
theorem test_memory_steps :
    result 3 32 0x00308183 loaded = some (0xFFFFFFCA#32, 0x80000004#32) ∧
    result 3 32 0x0000D183 loaded = some (0x0000BABE#32, 0x80000004#32) ∧
    result 1 32 0x0000A083 loaded = some (0xCAFEBABE#32, 0x80000004#32) ∧
    stored 0x80001000 32 0x002080A3 loaded = some (0xCAFE78BE#32, none) ∧
    stored 0x80001000 32 0x00209123 loaded = some (0x5678BABE#32, none) ∧
    trapped 32 0x00109183 loaded = some (4#32, 0x80001001#32, 0x80000000#32, 0#32) ∧
    trapped 32 0x0020A123 loaded = some (6#32, 0x80001002#32, 0x80000000#32, 0#32) ∧
    trapped 32 0x00002183 loaded = some (5#32, 0#32, 0x80000000#32, 0#32) := by
  decide

/-- RAM holds 0x80000005 at 0x80001000; x1 points to it (95_test_vectors.md §4). -/
def atomics (x2 : Word) (rsv : Option PhysAddr) : State :=
  { ready [(1, 0x80001000#32), (2, x2)] with mem := writeBytes 0x80001000 0x80000005#32 [] 4, rsv := rsv }

/-- Success and failure of SC.W, stores on and beside the reserved word, the signed and unsigned minimum. -/
theorem test_atomic_steps :
    stored 0x80001000 32 0x1000A1AF (atomics 0 (some 0x80001008)) = some (0x80000005#32, some 0x80001000) ∧
    stored 0x80001000 32 0x1820A1AF (atomics 0x11 (some 0x80001000)) = some (0x11#32, none) ∧
    stored 0x80001000 32 0x1820A1AF (atomics 0x11 (some 0x80001004)) = some (0x80000005#32, none) ∧
    result 1 32 0x1810A0AF (atomics 0 (some 0x80001000)) = some (0#32, 0x80000004#32) ∧
    stored 0x80001000 32 0x002081A3 (atomics 0x11 (some 0x80001000)) = some (0x11000005#32, none) ∧
    stored 0x80001004 32 0x0020A223 (atomics 0x11 (some 0x80001000)) = some (0x11#32, some 0x80001000) ∧
    stored 0x80001000 32 0x8020A1AF (atomics 1 none) = some (0x80000005#32, none) ∧
    stored 0x80001000 32 0xC020A1AF (atomics 1 none) = some (1#32, none) := by
  decide

/-- The state of 95_test_vectors.md §6: handlers at 0x80000200, 0x80000300 and 0x80000400, pc 0x80000040. -/
def system (p : Priv) (c : CsrFile → CsrFile) : State :=
  { ready [(5, 0x11111111#32), (6, 0xA5A5A5A5#32)] with
    pc := 0x80000040#32
    priv := p
    csr := c { State.reset.csr with tvec := ⟨0x80000400#32, 0x80000300#32, 0x80000200#32⟩ } }

/-- Privilege, status and pc after a step. -/
def mode (nbits w : Nat) (s : State) : Option (Priv × Word × Word) :=
  (stepWord nbits w s).map fun t => (t.priv, t.csr.status, t.pc)

/-- Trap entry by delegation, returns, WFI (95_test_vectors.md §6). -/
theorem test_trap_steps :
    mode 32 0x00000073 (system .supervisor fun c => { c with status := 0xA#32 }) = some (.machine, 0x882#32, 0x80000200#32) ∧
    mode 32 0x00000073 (system .user fun c => { c with medeleg := 0x100#32, status := 2#32 })
      = some (.supervisor, 0x20#32, 0x80000300#32) ∧
    mode 32 0x00000073 (system .user fun c => { c with medeleg := 0x100#32, sedeleg := 0x100#32, status := 1#32 })
      = some (.user, 0x10#32, 0x80000400#32) ∧
    mode 32 0x30200073 (system .machine fun c => { c with status := 0x21808#32, epc := ⟨0#32, 0#32, 0x80001002#32⟩ })
      = some (.machine, 0x20080#32, 0x80001002#32) ∧
    mode 32 0x10200073 (system .machine fun c => { c with status := 0x20#32, epc := ⟨0#32, 0x80001000#32, 0#32⟩ })
      = some (.user, 0x22#32, 0x80001000#32) ∧
    mode 32 0x10500073 (system .user fun c => { c with ie := 0x80#32, ip := 0x80#32 }) = some (.machine, 0#32, 0x80000200#32) ∧
    mode 32 0x10500073 (system .machine fun c => { c with mideleg := 0x20#32, ie := 0x20#32, ip := 0x20#32 })
      = some (.machine, 0#32, 0x80000040#32) := by
  decide

/-- x5, mscratch, status and mtval after a step. -/
def csrs (w : Nat) (s : State) : Option (Word × Word × Word × Word) :=
  (stepWord 32 w s).map fun t => (readReg t 5, t.csr.scratch.machine, t.csr.status, t.csr.tval.machine)

/-- M mode with mscratch = 0x12345678. -/
def scratched : State := system .machine fun c => { c with scratch := ⟨0#32, 0#32, 0x12345678#32⟩ }

/-- Zicsr (95_test_vectors.md §6): swap, set, clear. -/
theorem test_csr_steps :
    csrs 0x340312F3 scratched = some (0x12345678#32, 0xA5A5A5A5#32, 0#32, 0#32) ∧
    csrs 0x340322F3 scratched = some (0x12345678#32, 0xB7B5F7FD#32, 0#32, 0#32) ∧
    csrs 0x340C72F3 scratched = some (0x12345678#32, 0x12345660#32, 0#32, 0#32) := by
  decide

/-- Read-only and absent CSRs, the views of status, MPP = 2 refused. -/
theorem test_csr_checks :
    csrs 0xF14322F3 scratched = some (0x11111111#32, 0x12345678#32, 0x1800#32, 0xF14322F3#32) ∧
    csrs 0xF14072F3 scratched = some (0#32, 0x12345678#32, 0#32, 0#32) ∧
    csrs 0x10001073 (system .machine fun c => { c with status := 0xE19BB#32 }) = some (0x11111111#32, 0#32, 0x21888#32, 0#32) ∧
    csrs 0x300312F3 (writeReg 6 0x1000#32 (system .machine fun c => { c with status := 0x800#32 }))
      = some (0x800#32, 0#32, 0x800#32, 0#32) ∧
    csrs 0x3A0022F3 scratched = some (0x11111111#32, 0x12345678#32, 0x1800#32, 0x3A0022F3#32) := by
  decide

/-! ## Witnesses: for each obligation with hypotheses, a state and operands that meet them -/

/-- M mode, x1 at the last word of RAM, x2 a value. -/
def atEnd : State := ready [(1, 0x8FFFFFFC#32), (2, 0xA1B2C3D4#32)]

/-- Translation off: an address is its own physical address. -/
theorem atEnd_translate (va : Word) (ty : AccessType) : translate va ty atEnd = .ok (va.zeroExtend 34) atEnd :=
  translate_bare (.inl rfl)

theorem witness_FirstStepAfterReset : paramsLegal defaultParams = true ∧ (0#32).toNat < defaultParams.nharts := by decide

theorem witness_StepKeepsInvariant : Inv State.reset ∧ ∃ t, step State.reset = .next t :=
  ⟨by constructor <;> decide, _, rfl⟩

theorem witness_StepAlwaysAnswers :
    paramsLegal State.reset.cfg = true ∧ State.reset.csr.hartid.toNat < State.reset.cfg.nharts := by decide

theorem witness_ConfigurationFixed : ∃ t, step State.reset = .next t := ⟨_, rfl⟩

/-- The states of a U-mode ECALL, of an interrupt into S mode and of an SRET, each about to be fetched. -/
theorem witness_PrivilegeRisesByTrapsOnly :
    let pending : State := { system .user (fun c => { c with mideleg := 2#32, ie := 2#32 }) with evInt := true, evIntMask := 2#32 }
    let returning : State := { (system .supervisor id).withFetchWord 32 0x10200073 with waitEvent := true }
    (Spec.isTrapReturn .ecall = false ∧ Instr.ecall ≠ .wfi ∧
      ∃ t, exec .ecall (system .user id) = .next t ∧ t.priv ≠ (system .user id).priv) ∧
    (∃ t, exec .wfi (system .user fun c => { c with ie := 0x80#32, ip := 0x80#32 }) = .next t ∧ t.priv ≠ .user) ∧
    (∃ t, step pending = .next t ∧ t.priv = .supervisor ∧ pending.priv = .user) ∧
    ∃ t, step returning = .next t ∧ t.priv = .user ∧ returning.priv = .supervisor :=
  ⟨⟨rfl, by decide, _, rfl, by decide⟩, ⟨_, rfl, by decide⟩, ⟨_, rfl, rfl, rfl⟩, _, rfl, rfl, rfl⟩

theorem witness_UserModeConfinement :
    (system .user id).priv = .user ∧ ∃ t, exec (.csrrwi 5 0 31) (system .user id) = .next t ∧ t.priv = .user :=
  ⟨rfl, _, rfl, rfl⟩

theorem witness_OnlyStoresWriteMemory :
    Spec.mayStore (.lw 3 1 0) = false ∧ atEnd.csr.satp.getLsbD 31 = false ∧ mmioRegions atEnd.cfg = [] ∧
      atEnd.interleaved = [] ∧ ∃ t, exec (.lw 3 1 0) atEnd = .next t :=
  ⟨rfl, rfl, rfl, rfl, _, rfl⟩

theorem witness_OnlyLoadReservedReserves :
    (∀ aq rl rd rs1, Instr.sw 2 1 0 ≠ .lrW aq rl rd rs1) ∧ ∃ t, exec (.sw 2 1 0) atEnd = .next t :=
  ⟨fun _ _ _ _ h => Instr.noConfusion h, _, rfl⟩

theorem witness_DecodeEncode : Instr.wellFormed (.cLwsp 31 252) = true := by decide

theorem witness_EncodeDecode : decodeRaw (.half 0x52FE) = .ok (.cLwsp 5 252) := rfl

theorem witness_OpcodeTable :
    (decodeRaw (.word 0xFE209CE3) = .ok (.bne 1 2 0x1FF8) ∧
      (0x1063#32, 0x707f#32, .bne 1 2 0x1FF8) ∈ Spec.wordRows 0xFE209CE3 ∧ 0xFE209CE3#32 &&& 0x707f#32 = 0x1063#32) ∧
    decodeRaw (.half 0x617D) = .ok (.cAddi16sp 496) ∧
      (0x6101#16, 0xef83#16, true, .cAddi16sp 496) ∈ Spec.halfRows 0x617D ∧ 0x617D#16 &&& 0xef83#16 = 0x6101#16 :=
  ⟨⟨rfl, by decide, rfl⟩, rfl, by decide, rfl⟩

theorem witness_IllegalHalfwords : (0x8002#16).extractLsb' 0 2 ≠ 3#2 ∧ Spec.IllegalHalf 0x8002 :=
  ⟨by decide, by unfold Spec.IllegalHalf; decide⟩

/-! ### Page tables: root at 0x80001000, second level at 0x80002000 -/

/-- S mode with translation on; the entries that serve addresses below 4 KiB. -/
def paged (p : Priv) (pte1 pte0 : Word) : State :=
  { ready [(1, 0x124#32), (2, 0xA1B2C3D4#32)] with
    priv := p
    csr := { State.reset.csr with satp := 0x80080001#32 }
    mem := writeBytes 0x80002000 pte0 (writeBytes 0x80001000 pte1 [] 4) 4 }

/-- A pointer to the second level, and a supervisor leaf for the page 0x80003000. -/
def pointer : Word := 0x20000801#32
def leaf : Word := 0x20000C0F#32

/-- The second page has no second-level entry; a 32-bit instruction begins in the last halfword of the first page. -/
def endOfPage : State :=
  { paged .supervisor pointer leaf with
    pc := 0xFFE#32
    mem := writeBytes 0x80003FFE 0x0093#32 (paged .supervisor pointer leaf).mem 2 }

/-- A 32-bit instruction begins in the last halfword of RAM. -/
def endOfRam : State := { State.reset with pc := 0x8FFFFFFE#32, mem := writeBytes 0x8FFFFFFE 0x0093#32 [] 2 }

/-- The first and the second halfword of a fetch, each untranslatable or outside RAM. -/
theorem witness_FetchFaults :
    (∃ e tv s1, translate (paged .supervisor 0#32 0#32).pc .fetch (paged .supervisor 0#32 0#32) = .raise e tv s1) ∧
    (∃ pa s1, translate 0x90000000#32 .fetch { atEnd with pc := 0x90000000#32 } = .ok pa s1 ∧ inRam atEnd.cfg pa 2 = false) ∧
    (∃ pa s1, translate endOfPage.pc .fetch endOfPage = .ok pa s1 ∧ inRam endOfPage.cfg pa 2 = true ∧
      (Spec.half (interleave s1).mem pa.toNat).extractLsb' 0 2 = 3#2 ∧
      ∃ e tv s3, translate (endOfPage.pc + 2#32) .fetch (interleave s1) = .raise e tv s3) ∧
    ∃ pa s1, translate endOfRam.pc .fetch endOfRam = .ok pa s1 ∧ inRam endOfRam.cfg pa 2 = true ∧
      (Spec.half (interleave s1).mem pa.toNat).extractLsb' 0 2 = 3#2 ∧
      ∃ pb s3, translate (endOfRam.pc + 2#32) .fetch (interleave s1) = .ok pb s3 ∧ inRam endOfRam.cfg pb 2 = false :=
  ⟨⟨_, _, _, rfl⟩, ⟨_, _, rfl, rfl⟩, ⟨_, _, rfl, rfl, rfl, _, _, _, rfl⟩, _, _, rfl, rfl, rfl, _, _, rfl, rfl⟩

/-- Untranslated, the last four bytes of RAM being `addi x1, x0, 42`: no event, and with a posted event that fires
nothing. -/
def atLastWord (evInt : Bool) : State :=
  { State.reset with pc := 0x8FFFFFFC#32, mem := writeBytes 0x8FFFFFFC 0x02A00093#32 [] 4, evInt := evInt }

/-- The pages 0 and 1 stand in the frames 0x80003000 and 0x80005000; `addi x1, x0, 42` crosses from one to the other. -/
def crossing : State :=
  { endOfPage with mem := writeBytes 0x80005000 0x02A0#32 (writeBytes 0x80002004 0x2000140F#32 endOfPage.mem 4) 2 }

/-- `c.addi x5, 31` in the last halfword of the first page; the second page has no entry. -/
def shortAtEnd : State := { endOfPage with mem := writeBytes 0x80003FFE 0x02FD#32 endOfPage.mem 2 }

/-- The state of the fetch of R470 when no event check is made. -/
def fetching (s : State) : State := { s with waitEvent := true, parked := false, agenda := s.agenda.tail }

/-- A hart turn that makes no event check, or one in which nothing fires; untranslated, translated across two pages, and
16 bits long. -/
theorem witness_StepRunsDecoded :
    (∀ s, s ∈ [crossing, shortAtEnd, atLastWord false, atLastWord true] →
      (paramsLegal s.cfg = true ∧ s.csr.hartid.toNat < s.cfg.nharts) ∧ s.agenda = [] ∧
        ¬ (s.parked = true ∧ s.waitEvent = true) ∧ Spec.NoneFires false (Spec.folded s)) ∧
    (∃ bytes t, Spec.Fetches (fetching (Spec.folded (atLastWord true))) bytes t ∧
      decodeBytes bytes = .ok (.addi 1 0 42, [])) ∧
    (∃ bytes t, Spec.Fetches (fetching (atLastWord false)) bytes t ∧ decodeBytes bytes = .ok (.addi 1 0 42, [])) ∧
    (∃ bytes t, Spec.Fetches (fetching crossing) bytes t ∧ decodeBytes bytes = .ok (.addi 1 0 42, [])) ∧
    ∃ bytes t, Spec.Fetches (fetching shortAtEnd) bytes t ∧ decodeBytes bytes = .ok (.cAddi 5 31, []) :=
  ⟨by unfold Spec.NoneFires Spec.Fires; decide,
    ⟨_, _, ⟨_, _, rfl, rfl, .inr ⟨rfl, _, _, rfl, rfl, rfl, rfl⟩⟩, rfl⟩,
    ⟨_, _, ⟨_, _, rfl, rfl, .inr ⟨rfl, _, _, rfl, rfl, rfl, rfl⟩⟩, rfl⟩,
    ⟨_, _, ⟨_, _, rfl, rfl, .inr ⟨rfl, _, _, rfl, rfl, rfl, rfl⟩⟩, rfl⟩,
    _, _, ⟨_, _, rfl, rfl, .inl ⟨by decide, rfl, rfl⟩⟩, rfl⟩

/-- R170, D8: the second halfword is read through its own translation, not two bytes after the first. -/
theorem test_fetch_across_pages :
    (match step crossing with | .next t => some (readReg t 1, t.pc, t.priv) | _ => none)
      = some (42#32, 0x1002#32, .supervisor) := by
  decide

/-- The reserved halfword 0x8002 at the reset vector. -/
def reserved : State := { State.reset with mem := writeBytes 0x80000000 0x8002#32 [] 2 }

theorem witness_IllegalEncodingsTrap :
    ∃ raw s1 e, fetchInstruction reserved = .ok raw s1 ∧ decodeRaw raw = .error e :=
  ⟨_, _, _, rfl, rfl⟩

/-! ### Data accesses: the last byte, halfword and word of RAM -/

theorem witness_LoadResults_StoreResults : atEnd.mem.wf = true ∧
    ∀ ty, (translate (readReg atEnd 1 + 3#32) ty atEnd = .ok 0x8FFFFFFF#34 atEnd ∧ inRam atEnd.cfg 0x8FFFFFFF#34 1 = true) ∧
      ((readReg atEnd 1 + 2#32).toNat % 2 = 0 ∧ translate (readReg atEnd 1 + 2#32) ty atEnd = .ok 0x8FFFFFFE#34 atEnd ∧
        inRam atEnd.cfg 0x8FFFFFFE#34 2 = true) ∧
      (readReg atEnd 1).toNat % 4 = 0 ∧ translate (readReg atEnd 1) ty atEnd = .ok 0x8FFFFFFC#34 atEnd ∧
        inRam atEnd.cfg 0x8FFFFFFC#34 4 = true :=
  ⟨rfl, fun ty => ⟨⟨atEnd_translate _ ty, rfl⟩, ⟨rfl, atEnd_translate _ ty, rfl⟩, rfl, atEnd_translate _ ty, rfl⟩⟩

/-- The last word of RAM, reserved or not. -/
def reservedEnd (b : Bool) : State := { atEnd with rsv := if b then some 0x8FFFFFFC#34 else none }

theorem witness_LoadReservedResult_StoreConditionalResult_AmoResults (b : Bool) (ty : AccessType) :
    (reservedEnd b).mem.wf = true ∧ (readReg (reservedEnd b) 1).toNat % 4 = 0 ∧
      translate (readReg (reservedEnd b) 1) ty (reservedEnd b) = .ok 0x8FFFFFFC#34 (reservedEnd b) ∧
      inRam (reservedEnd b).cfg 0x8FFFFFFC#34 4 = true ∧
      ((interleave (reservedEnd b)).rsv = some 0x8FFFFFFC#34 ↔ b = true) :=
  ⟨by cases b <;> decide, by cases b <;> decide, translate_bare (.inl (by cases b <;> decide)), by cases b <;> decide,
    by cases b <;> decide⟩

theorem witness_StoreThenLoad : atEnd.mem.wf = true ∧ atEnd.interleaved = [] ∧ (3#5 : Reg) ≠ 0#5 ∧ (3#12).toNat < 4 ∧ effPriv .load atEnd = .machine ∧
    (readReg atEnd 1 + (0#12).signExtend 32).toNat % 4 = 0 ∧
    inRam atEnd.cfg ((readReg atEnd 1 + (0#12).signExtend 32).zeroExtend 34) 4 = true ∧
    (0#12 + 3#12).toInt = (0#12).toInt + (3#12).toNat :=
  ⟨rfl, rfl, by decide, by decide, rfl, rfl, rfl, rfl⟩

theorem witness_LoadReservedStoreConditional : atEnd.mem.wf = true ∧ atEnd.interleaved = [] ∧ effPriv .load atEnd = .machine ∧
    (readReg atEnd 1).toNat % 4 = 0 ∧ inRam atEnd.cfg ((readReg atEnd 1).zeroExtend 34) 4 = true ∧
    (3#5 : Reg) ≠ 1 ∧ (3#5 : Reg) ≠ 2 ∧ (4#5 : Reg) ≠ 1 ∧ (4#5 : Reg) ≠ 2 ∧ (5#5 : Reg) ≠ 0#5 := by
  decide

theorem witness_MisalignedAccessTraps :
    (Spec.memForm (.lh 3 1 3) atEnd = some (.load, 0x8FFFFFFF#32, 2) ∧ (0x8FFFFFFF#32).toNat % 2 ≠ 0) ∧
    (Spec.memForm (.sw 2 1 2) atEnd = some (.store, 0x8FFFFFFE#32, 4) ∧ (0x8FFFFFFE#32).toNat % 4 ≠ 0) ∧
    Spec.memForm (.scW false false 3 2 2) atEnd = some (.store, 0xA1B2C3D4#32, 4) := by
  decide

/-- Page-fault and access-fault translations of a load and of a store at 0x124. -/
theorem witness_TranslationFaultsTrap :
    Spec.memForm (.lw 3 1 0) (paged .supervisor 0#32 0#32) = some (.load, 0x124#32, 4) ∧ (0x124#32).toNat % 4 = 0 ∧
    (∃ s1, translate 0x124#32 .load (paged .supervisor 0#32 0#32) = .raise .loadPageFault 0x124#32 s1) ∧
    Spec.memForm (.scW false false 3 2 1) (paged .user 0x40000001#32 0#32) = some (.store, 0x124#32, 4) ∧
    ∃ s1, translate 0x124#32 .store (paged .user 0x40000001#32 0#32) = .raise .storeAccessFault 0x124#32 s1 :=
  ⟨rfl, rfl, ⟨_, rfl⟩, rfl, _, rfl⟩

/-- Just past RAM for a load and for an atomic, and a page above 4 GiB. -/
theorem witness_UnmappedAccessTraps :
    let past : State := ready [(1, 0x90000000#32)]
    let high : State := paged .supervisor pointer 0x4000000F#32
    (Spec.memForm (.lw 3 1 0) past = some (.load, 0x90000000#32, 4) ∧ translate 0x90000000#32 .load past = .ok 0x90000000#34 past ∧
      Spec.isAtomic (.lw 3 1 0) = false ∧ Spec.Unmapped 0x90000000#34 4 past) ∧
    (Spec.memForm (.lrW false false 3 1) past = some (.load, 0x90000000#32, 4) ∧ Spec.isAtomic (.lrW false false 3 1) = true ∧
      inRam past.cfg 0x90000000#34 4 = false) ∧
    ∃ s1, translate 0x124#32 .store high = .ok 0x100000124#34 s1 ∧ Spec.Unmapped 0x100000124#34 4 high :=
  ⟨⟨rfl, rfl, rfl, .inr ⟨rfl, rfl⟩⟩, ⟨rfl, rfl, rfl⟩, _, rfl, .inl (by decide)⟩

/-- One device region; x1 at its last word. -/
def withDevice : State :=
  let s := ready [(1, 0x10000FFC#32), (2, 0xA1B2C3D4#32)]
  { s with cfg := { s.cfg with mmioTable := [⟨0x10000000, 0x10001000, 7⟩] } }

theorem witness_DeviceLoads_DeviceStores (ty : AccessType) :
    translate (readReg withDevice 1 + (0#12).signExtend 32) ty withDevice = .ok 0x10000FFC#34 withDevice ∧
      (0x10000FFC#34).toNat < 2 ^ 32 ∧ mmioLookup withDevice.cfg 0x10000FFC#34 = some ⟨0x10000000, 0x10001000, 7⟩ ∧
      inRam withDevice.cfg 0x10000FFC#34 4 = false ∧ inRam withDevice.cfg 0x10000FFC#34 1 = false ∧
      paramsLegal withDevice.cfg = true ∧ (readReg withDevice 1 + (0#12).signExtend 32).toNat % Width.word.bytes = 0 ∧
      Spec.loadForm (.lw 3 1 0) withDevice
        = some (3, readReg withDevice 1 + (0#12).signExtend 32, .word, fun d => d, 4#32) ∧
      Spec.storeForm (.sw 2 1 0) withDevice
        = some (readReg withDevice 1 + (0#12).signExtend 32, .word, readReg withDevice 2, 4#32) :=
  ⟨translate_bare (.inl rfl), by decide, rfl, rfl, rfl, by decide, by decide, rfl, rfl⟩

/-! ### Translation -/

/-- The walk of va 0x124 meets neither a machine-level access nor a TLB entry. -/
theorem paged_walks (p : Priv) (h : p ≠ .machine) (pte1 pte0 va : Word) (ty : AccessType) :
    Spec.Walks va ty (paged p pte1 pte0) := by
  have hs : (paged p pte1 pte0).csr = { State.reset.csr with satp := 0x80080001#32 } := rfl
  have h0 : statusMPRV State.reset.csr.status = false := by decide
  refine ⟨by rw [hs]; decide, ?_, rfl⟩
  have hp : (paged p pte1 pte0).priv = p := rfl
  cases ty <;> simpa [effPriv, hs, h0, hp] using h

theorem witness_WalkFourKiB (ty : AccessType) :
    let s := paged .supervisor pointer leaf
    let pte1 := Spec.word4 (interleave s).mem (Spec.entry1 0x124#32 s).toNat
    let a0 := Spec.entry0 pte1 0x124#32
    let pte0 := Spec.word4 (interleave (interleave s)).mem a0.toNat
    s.mem.wf = true ∧ Spec.Walks 0x124#32 ty s ∧ inRam s.cfg (Spec.entry1 0x124#32 s) 4 = true ∧ ¬ Spec.Invalid pte1 ∧
      ¬ Spec.Leaf pte1 ∧ inRam s.cfg a0 4 = true ∧ ¬ Spec.Invalid pte0 ∧ Spec.Leaf pte0 ∧ Spec.Allowed pte0 ty s := by
  refine ⟨rfl, paged_walks _ (by decide) _ _ _ _, by decide, ?_⟩
  cases ty <;> (unfold Spec.Invalid Spec.Leaf Spec.Allowed; decide)

/-- A superpage leaf: aligned, and with PPN0 = 1. -/
theorem witness_WalkSuperpage (pte : Word) (h : pte = 0x2000000F#32 ∨ pte = 0x2000040F#32) (ty : AccessType) :
    let s := paged .supervisor pte 0#32
    let pte1 := Spec.word4 (interleave s).mem (Spec.entry1 0x124#32 s).toNat
    s.mem.wf = true ∧ Spec.Walks 0x124#32 ty s ∧ inRam s.cfg (Spec.entry1 0x124#32 s) 4 = true ∧ ¬ Spec.Invalid pte1 ∧
      Spec.Leaf pte1 ∧ Spec.Allowed pte1 ty s ∧
      (pte = 0x2000000F#32 → pte1.extractLsb' 10 10 = 0#10) ∧ (pte = 0x2000040F#32 → pte1.extractLsb' 10 10 ≠ 0#10) := by
  rcases h with rfl | rfl
  all_goals
    refine ⟨rfl, paged_walks _ (by decide) _ _ _ _, by decide, ?_⟩
    cases ty <;> (unfold Spec.Invalid Spec.Leaf Spec.Allowed; decide)

/-- The two entries of va 0x124 as the walk reads them, and the address of the second. -/
def e1 (s : State) : Word := Spec.word4 (interleave s).mem (Spec.entry1 0x124#32 s).toNat
def a0 (s : State) : PhysAddr := Spec.entry0 (e1 s) 0x124#32
def e0 (s : State) : Word := Spec.word4 (interleave (interleave s)).mem (a0 s).toNat

/-- The root lies below RAM, at address 0. -/
def rootOutside : State := { paged .user pointer leaf with csr := { State.reset.csr with satp := 0x80000000#32 } }

/-- The first clause: the walk is made, and its root is outside RAM. -/
theorem witness_WalkFaults_outside :
    Spec.Walks 0x124#32 .load rootOutside ∧ inRam rootOutside.cfg (Spec.entry1 0x124#32 rootOutside) 4 = false := by
  refine ⟨⟨by decide, by decide, rfl⟩, by decide⟩

/-- One state for each other way a walk fails at the root (`paged_walks`: each of them walks): invalid, without
permission, a superpage whose PPN0 is 1. -/
theorem witness_WalkFaults_root :
    inRam defaultParams (Spec.entry1 0x124#32 (paged .user 0x5#32 0#32)) 4 = true ∧
    Spec.Invalid (e1 (paged .user 0x5#32 0#32)) ∧ Spec.Leaf (e1 (paged .user 0x2000000F#32 0#32)) ∧
    ¬ Spec.Allowed (e1 (paged .user 0x2000000F#32 0#32)) .load (paged .user 0x2000000F#32 0#32) ∧
    ¬ Spec.Invalid (e1 (paged .user 0x2000041F#32 0#32)) ∧ Spec.Leaf (e1 (paged .user 0x2000041F#32 0#32)) ∧
    (e1 (paged .user 0x2000041F#32 0#32)).extractLsb' 10 10 ≠ 0#10 := by
  unfold Spec.Invalid Spec.Leaf Spec.Allowed
  decide

/-- The same at the second level: outside RAM, invalid, no leaf, without permission. -/
theorem witness_WalkFaults_second :
    ¬ Spec.Leaf (e1 (paged .user 0x40000001#32 0#32)) ∧ inRam defaultParams (a0 (paged .user 0x40000001#32 0#32)) 4 = false ∧
    Spec.Invalid (e0 (paged .user pointer 0#32)) ∧ ¬ Spec.Leaf (e0 (paged .user pointer pointer)) ∧
    ¬ Spec.Allowed (e0 (paged .user pointer leaf)) .load (paged .user pointer leaf) := by
  unfold Spec.Invalid Spec.Leaf Spec.Allowed
  decide

theorem witness_TranslationFrame :
    (paged .supervisor pointer leaf).mem.wf = true ∧ (paged .supervisor pointer leaf).interleaved = [] ∧
      (∃ pa t, translate 0x124#32 .store (paged .supervisor pointer leaf) = .ok pa t) ∧
      ∃ e tv t, translate 0x124#32 .store (paged .user pointer leaf) = .raise e tv t :=
  ⟨rfl, rfl, ⟨_, _, rfl⟩, _, _, _, rfl⟩

/-- A TLB hit for a store with the last index of the TLB, and MPRV with MPP = S. -/
theorem witness_TranslationWithoutWalk :
    let e : TlbEntry := ⟨0x400FF#20, ⟨false, false, true⟩, 0x80003#20⟩
    let s : State := { paged .supervisor pointer leaf with tlb := [(255, e)] }
    let m : State := { atEnd with csr := { State.reset.csr with status := 0x20800#32 } }
    (s.csr.satp.getLsbD 31 = true ∧ effPriv .store s ≠ .machine ∧
      sparseGet (((0x400FF004#32).extractLsb' 12 20).toNat &&& (s.cfg.tlbN - 1)) s.tlb = some e ∧
      e.vpn = (0x400FF004#32).extractLsb' 12 20 ∧ e.perm.store = true) ∧
    m.csr.status.getLsbD 17 = true ∧ m.csr.status.extractLsb' 11 2 ≠ 2#2 ∧
    State.reset.csr.status.getLsbD 17 = false ∧ State.reset.csr.satp.getLsbD 31 = false := by
  decide

/-! ### Traps, returns, CSRs, interrupts -/

theorem witness_TrapReturnResults :
    (.uret, .user) ∈ [(Instr.uret, Priv.user), (.sret, .supervisor), (.mret, .machine)] ∧
    (.sret, .supervisor) ∈ [(Instr.uret, Priv.user), (.sret, .supervisor), (.mret, .machine)] ∧
    (.mret, .machine) ∈ [(Instr.uret, Priv.user), (.sret, .supervisor), (.mret, .machine)] ∧
    Priv.user.code.toNat ≤ (system .user id).priv.code.toNat ∧ Priv.supervisor.code.toNat ≤ (system .supervisor id).priv.code.toNat ∧
    Priv.machine.code.toNat ≤ (system .machine id).priv.code.toNat ∧ statusMPP (system .machine id).csr.status ≠ 2#2 := by
  decide

theorem witness_PrivilegedInstructionsTrap_SfenceFlushes :
    (system .user id).priv = .user ∧ (system .supervisor id).priv ≠ .machine ∧ (paged .supervisor pointer leaf).priv ≠ .user ∧
      (paged .supervisor pointer leaf).csr.satp.getLsbD 31 = true ∧ effPriv .store (paged .supervisor pointer leaf) ≠ .machine := by
  decide

/-- Read, write, set and clear forms the access check lets through. -/
theorem witness_CsrInstructionResults :
    let s := system .supervisor id
    (Spec.csrForm (.csrrci 5 0xF14 0) (system .machine id) = some (0xF14, .read, 0#32, 5) ∧ Spec.CsrAllowed 0xF14 .read (system .machine id)) ∧
    (Spec.csrForm (.csrrw 5 0x180 6) s = some (0x180, .write, 0xA5A5A5A5#32, 5) ∧ Spec.CsrAllowed 0x180 .write s) ∧
    (Spec.csrForm (.csrrs 5 0x100 6) s = some (0x100, .set, 0xA5A5A5A5#32, 5) ∧ Spec.CsrAllowed 0x100 .set s) ∧
    (Spec.csrForm (.csrrci 5 0x144 31) s = some (0x144, .clear, 31#32, 5) ∧ Spec.CsrAllowed 0x144 .clear s) ∧
    (Spec.csrForm (.csrrw 5 0x140 6) s = some (0x140, .write, 0xA5A5A5A5#32, 5) ∧ Spec.CsrAllowed 0x140 .write s) ∧
    (0x144#12 ∈ Spec.selfSignalling ∧ 0x140#12 ∉ Spec.selfSignalling) ∧
    ∀ a, a ∈ [0xF14#12, 0x180, 0x100, 0x144, 0x140] → ∃ row, csrFind a = some row := by
  refine ⟨⟨rfl, ?_⟩, ⟨rfl, ?_⟩, ⟨rfl, ?_⟩, ⟨rfl, ?_⟩, ⟨rfl, ?_⟩, by decide, ?_⟩
  · unfold Spec.CsrAllowed; decide
  · unfold Spec.CsrAllowed; decide
  · unfold Spec.CsrAllowed; decide
  · unfold Spec.CsrAllowed; decide
  · unfold Spec.CsrAllowed; decide
  · intro a h
    simp only [List.mem_cons, List.not_mem_nil, or_false] at h
    rcases h with rfl | rfl | rfl | rfl | rfl <;> exact ⟨_, rfl⟩

/-- Above the privilege, no CSR, and a write of a read-only one. -/
theorem witness_CsrAccessDenied :
    ¬ Spec.CsrAllowed 0x340 .read (system .supervisor id) ∧ ¬ Spec.CsrAllowed 0xC00 .read (system .machine id) ∧
      ¬ Spec.CsrAllowed 0xF14 .write (system .machine id) ∧
      Spec.csrForm (.csrrw 0 0xF14 0) (system .machine id) = some (0xF14, .write, 0#32, 0) := by
  unfold Spec.CsrAllowed
  decide

theorem witness_CsrMap_CsrWrites_StatusViews :
    ((0xF14#12).extractLsb' 8 2).toNat ≤ (system .machine id).priv.code.toNat ∧
    (0xF14#12, 0#32) ∈ Spec.csrReads (system .machine id).csr ∧
    (0x180#12, { (system .supervisor id).csr with satp := Spec.merge 0x803FFFFF#32 0#32 0xA5A5A5A5#32 })
      ∈ Spec.csrWrites (system .supervisor id).csr (readReg (system .supervisor id) 6) ∧
    Spec.csrForm (.csrrw 5 0x300 6) (writeReg 6 0x1000#32 (system .machine id)) = some (0x300, .write, 0x1000#32, 5) ∧
    (0x1000#32).extractLsb' 11 2 = 2#2 ∧ Spec.csrForm (.csrrsi 5 0x000 0) (system .user id) = some (0, .read, 0#32, 5) := by
  decide

/-- An address no CSR has. -/
theorem witness_CsrMap_absent (v : Word) : (0xC00#12, v) ∉ Spec.csrReads (system .machine id).csr := by
  simp [Spec.csrReads]

/-- Interrupts 11 and 7 enabled and posted; 11 is scanned first. -/
def posted (p : Priv) : State :=
  { system p (fun c => { c with ie := 0x880#32, status := 8#32 }) with evInt := true, evIntMask := 0x880#32 }

theorem posted_first (wfi : Bool) : Spec.FirstFiring wfi 11 (Spec.folded (posted .machine)) :=
  ⟨[], [3, 7, 9, 1, 5, 8, 0, 4], rfl, by unfold Spec.Fires; cases wfi <;> decide, fun _ h => by cases h⟩

/-- The timer interrupt alone is enabled: 11 and 3 do not fire before it. -/
theorem witness_WaitForInterruptTakes :
    Spec.FirstFiring true 11 (Spec.folded (posted .machine)) ∧
    Spec.FirstFiring true 7 (Spec.folded (system .user fun c => { c with ie := 0x80#32, ip := 0x880#32 })) :=
  ⟨posted_first true, [11, 3], [9, 1, 5, 8, 0, 4], rfl, by unfold Spec.Fires; decide, by unfold Spec.Fires; decide⟩

theorem witness_WaitForInterruptParks : Spec.NoneFires true (Spec.folded State.reset) := by
  unfold Spec.NoneFires Spec.Fires
  decide

theorem witness_EventCheck :
    (paramsLegal State.reset.cfg = true ∧ State.reset.csr.hartid.toNat < State.reset.cfg.nharts ∧ State.reset.agenda = [] ∧
      ({ State.reset with agenda := [.hart, .agent .timer] } : State).agenda = .hart :: [.agent .timer]) ∧
    ((posted .machine).waitEvent = false ∧ (posted .machine).evInt = true ∧ (posted .machine).parked = false ∧
      Spec.FirstFiring false 11 (Spec.folded (posted .machine))) ∧
    (¬ (State.reset.parked = true ∧ State.reset.waitEvent = true) ∧ State.reset.evInt = false) ∧
    ∃ s : State, s.parked = true ∧ s.waitEvent = true :=
  ⟨by decide, ⟨rfl, rfl, rfl, posted_first false⟩, ⟨by decide, rfl⟩, { State.reset with parked := true, waitEvent := true },
    rfl, rfl⟩

/-- A parked hart at a WFI, woken by the posted interrupts. -/
def wokenWait : State := { posted .machine with parked := true, mem := writeBytes 0x80000040 0x10500073#32 [] 4 }

theorem witness_WokenWaitTakesInterrupt :
    wokenWait.parked = true ∧ wokenWait.waitEvent = false ∧
      ∃ s1, Spec.Fetches { wokenWait with waitEvent := true, parked := false } (Spec.rawBytes (encode .wfi)) s1 ∧
        Spec.FirstFiring true 11 (Spec.folded s1) :=
  ⟨rfl, rfl, _, ⟨_, _, rfl, rfl, .inr ⟨rfl, _, _, rfl, rfl, rfl, rfl⟩⟩,
    [], [3, 7, 9, 1, 5, 8, 0, 4], rfl, by unfold Spec.Fires; decide, fun _ h => by cases h⟩

/-- Two harts, RSV_SNOOP at `b`, the last word of RAM reserved. -/
def snooping (b : Bool) : State := { reservedEnd true with cfg := { defaultParams with rsvSnoop := b, nharts := 2 } }

/-- Hart 1 is another hart; hart 2 is none, and hart 0 is this one. -/
theorem witness_OtherHartStores (b : Bool) :
    (snooping b).mem.wf = true ∧ 1 < (snooping b).cfg.nharts ∧ 1 ≠ (snooping b).csr.hartid.toNat ∧
      inRam (snooping b).cfg 0x8FFFFFFC#34 Width.word.bytes = true ∧ (snooping b).cfg.rsvSnoop = b ∧
      (snooping b).cfg.nharts ≤ 2 ∧ 0 = (snooping b).csr.hartid.toNat ∧
      inRam (snooping b).cfg 0x8FFFFFFE#34 Width.word.bytes = false := by
  cases b <;> decide

/-- A turn of the timer agent, and one list of actions before the next memory event. -/
theorem witness_AgentActions :
    let s : State := { State.reset with agenda := [.agent .timer], interleaved := [[.deviceState 1], []] }
    paramsLegal s.cfg = true ∧ s.csr.hartid.toNat < s.cfg.nharts ∧ s.agenda = .agent .timer :: [] ∧ s.mem.wf = true ∧
      s.interleaved = [.deviceState 1] :: [[]] := by
  decide

/-! ## Other agents between the memory events of one instruction (R103, R128, R141) -/

/-- `addi x1, x0, 42` at the reset vector, fetched as two halfwords; before the second a device writes it anew. -/
def rewritten : State :=
  { State.reset.withFetchWord 32 0x02A00093 with
    interleaved := [[], [.device (.ramWrite 0x80000000 [0x13, 0x01, 0x70, 0x00])]] }

/-- R103: the low halfword of the old instruction and the high one of the new make `addi x1, x0, 7`. -/
theorem test_fetch_is_two_accesses :
    (match step rewritten with | .next t => some (readReg t 1, readReg t 2, t.interleaved) | _ => none)
      = some (7#32, 0#32, []) := by
  decide

/-- R128: between the read of a leaf and its update a device clears the leaf's permissions; the update still only ORs A
and D into the word as it is then. -/
theorem test_ad_update_is_an_or :
    let s : State :=
      { paged .supervisor pointer leaf with interleaved := [[], [], [.device (.ramWrite 0x80002000 [0x01, 0xAA])], []] }
    (match translate 0x124#32 .store s with
      | .ok pa t => some (pa, readBytes t.mem 0x80002000 4, t.interleaved)
      | _ => none) = some (0x80003124#34, 0x2000AAC1#32, [[]]) := by
  decide

/-- R14, R324: a store of hart 1 just before an SC.W makes it fail; with one hart in the registry it does nothing. -/
theorem test_other_hart_inside_sc :
    let s (n : Nat) : State :=
      { reservedEnd true with
        cfg := { defaultParams with nharts := n }
        interleaved := [[.otherHartStore 1 0x8FFFFFFC#34 .byte 9#32]] }
    let run (n : Nat) := match exec (.scW false false 3 2 1) (s n) with
      | .next t => some (readReg t 3, readBytes t.mem 0x8FFFFFFC 4)
      | _ => none
    run 2 = some (1#32, 9#32) ∧ run 1 = some (0#32, 0xA1B2C3D4#32) := by
  decide

/-- R58, R80: a hart outside the registry is no machine of the spec. -/
theorem test_hart_outside_registry :
    step (State.resetWith defaultParams 1#32 []) = .refused .badConfiguration := by
  rfl

end Sys2Proof.Tests
end

section
/-! What the parts of an instruction do before it commits or traps: a relation between states, said once for every
memory event, TLB fill and flush, with its frame. -/

namespace Sys2Proof.Machine

/-! ## What an instruction does before it commits -/

/-- `t` is the state after some memory events, TLB fills and flushes of one instruction that began in `s`, before that
instruction writes a register, pc or a CSR, sets a reservation, or traps (R12, R141). -/
inductive Reaches (s : State) : State → Prop
  | refl : Reaches s s
  | interleave {t : State} : Reaches s t → Reaches s (interleave t)
  | orAD {t : State} {a : PhysAddr} (ty : AccessType) :
      Reaches s t → inRam t.cfg a 4 = true → Reaches s (orAD a ty t)
  | tlbFill {t : State} (va : Word) (ty : AccessType) (pa : PhysAddr) : Reaches s t → Reaches s (tlbFill va ty pa t)
  | flushTlb {t : State} : Reaches s t → Reaches s (flushTlb t)
  | mmioCall {t : State} (acc : Config.MmioAccess) : Reaches s t → Reaches s (mmioCall acc t)
  | ramWrite {t : State} {pa : PhysAddr} {n : Nat} (v : Word) :
      Reaches s t → inRam t.cfg pa n = true → Reaches s (ramWrite pa n v t)
  | unreserve {t : State} : Reaches s t → Reaches s { t with rsv := none }

theorem Reaches.trans {s t u : State} (h : Reaches s t) (h' : Reaches t u) : Reaches s u := by
  induction h' with
  | refl => exact h
  | interleave _ ih => exact ih.interleave
  | orAD ty _ hr ih => exact ih.orAD ty hr
  | tlbFill va ty pa _ ih => exact ih.tlbFill va ty pa
  | flushTlb _ ih => exact ih.flushTlb
  | mmioCall acc _ ih => exact ih.mmioCall acc
  | ramWrite v _ hr ih => exact ih.ramWrite v hr
  | unreserve _ ih => exact ih.unreserve

/-- The state in which a part of an instruction ends, by a value or by a raise. -/
def Access.state {α : Type} : Access α → State
  | .ok _ s => s
  | .raise _ _ s => s

theorem andThen_reaches {α β : Type} {s : State} {r : Access α} {f : α → State → Access β} (h : Reaches s r.state)
    (hf : ∀ a t, r = .ok a t → Reaches t (f a t).state) : Reaches s (r.andThen f).state := by
  cases r with
  | ok a t => exact h.trans (hf a t rfl)
  | raise e tv t => exact h

theorem pteRead_reaches (a : PhysAddr) (ty : AccessType) (va : Word) (s : State) :
    Reaches s (pteRead a ty va s).state := by
  unfold pteRead
  split
  · exact Reaches.refl.interleave
  · exact .refl

/-- The entry a walk has just read stands in RAM, so its A and D bits are set in RAM. -/
theorem updateAD_reaches {a : PhysAddr} {ty ty' : AccessType} {va pte pte' : Word} {s t : State}
    (h : pteRead a ty va s = .ok pte t) : Reaches t (updateAD a pte' ty' t) := by
  obtain ⟨rfl, hr, -⟩ := pteRead_ok h
  unfold updateAD
  split
  · exact .refl
  · exact Reaches.refl.interleave.orAD ty' (by simpa using hr)

theorem walkLevel0_reaches (a0 : PhysAddr) (va : Word) (ty : AccessType) (eff : Priv) (s : State) :
    Reaches s (walkLevel0 a0 va ty eff s).state := by
  refine andThen_reaches (pteRead_reaches ..) fun pte t h => ?_
  split_ifs
  · exact .refl
  · exact .refl
  · exact .refl
  · exact updateAD_reaches h

theorem walk_reaches (va : Word) (ty : AccessType) (eff : Priv) (s : State) :
    Reaches s (walk va ty eff s).state := by
  refine andThen_reaches (pteRead_reaches ..) fun pte t h => ?_
  split_ifs
  · exact .refl
  · exact .refl
  · exact .refl
  · exact updateAD_reaches h
  · exact walkLevel0_reaches ..

theorem translate_reaches (va : Word) (ty : AccessType) (s : State) : Reaches s (translate va ty s).state := by
  unfold Machine.translate
  dsimp only
  split
  · exact .refl
  · split
    · exact .refl
    · exact andThen_reaches (walk_reaches ..) fun pa t _ => Reaches.refl.tlbFill va ty pa

theorem physRead_reaches (pa : PhysAddr) (w : Width) (s : State) : Reaches s (physRead pa w s).2 := by
  unfold physRead
  split
  · exact .refl
  · split
    · exact Reaches.refl.interleave
    · split
      · exact .refl
      · exact Reaches.refl.interleave.mmioCall _

theorem physWrite_reaches (pa : PhysAddr) (w : Width) (v : Word) (s : State) : Reaches s (physWrite pa w v s).2 := by
  unfold physWrite
  split
  · exact .refl
  · split
    · rename_i hr; exact Reaches.refl.interleave.ramWrite v (by simpa using hr)
    · split
      · exact .refl
      · exact Reaches.refl.interleave.mmioCall _

theorem memRead_reaches (va : Word) (w : Width) (s : State) : Reaches s (memRead va w s).state := by
  unfold memRead
  split
  · exact .refl
  · refine andThen_reaches (translate_reaches ..) fun pa t _ => ?_
    have h := physRead_reaches pa w t
    split <;> simpa [*, Access.state] using h

theorem memWrite_reaches (va : Word) (w : Width) (v : Word) (s : State) : Reaches s (memWrite va w v s).state := by
  unfold memWrite
  split
  · exact .refl
  · refine andThen_reaches (translate_reaches ..) fun pa t _ => ?_
    have h := physWrite_reaches pa w v t
    split <;> simpa [*, Access.state] using h

theorem atomicAddr_reaches (va : Word) (ty : AccessType) (e : Exception) (s : State) :
    Reaches s (atomicAddr va ty e s).state := by
  unfold atomicAddr
  split
  · exact .refl
  · refine andThen_reaches (translate_reaches ..) fun pa t _ => ?_
    split
    · exact Reaches.refl.interleave
    · exact .refl

theorem fetch16_reaches (va : Word) (s : State) : Reaches s (fetch16 va s).state := by
  refine andThen_reaches (translate_reaches ..) fun pa t _ => ?_
  unfold physFetch16
  split
  · exact Reaches.refl.interleave
  · exact .refl

theorem fetchInstruction_reaches (s : State) : Reaches s (fetchInstruction s).state := by
  refine andThen_reaches (fetch16_reaches ..) fun lo t _ => ?_
  split
  · exact andThen_reaches (fetch16_reaches ..) fun hi u _ => .refl
  · exact .refl

/-! ## Its frame -/

/-- The registers, pc, the mode, the CSRs, the parameters and the flags of the hart that are the same in `t`: what no
memory event, TLB fill or flush changes (R14; unlike `SamePrivate`, the record of MMIO accesses may differ). -/
structure SameCore (s t : State) : Prop where
  regs : t.regs = s.regs
  pc : t.pc = s.pc
  priv : t.priv = s.priv
  csr : t.csr = s.csr
  cfg : t.cfg = s.cfg
  parked : t.parked = s.parked
  evTrap : t.evTrap = s.evTrap
  agenda : t.agenda = s.agenda

theorem SameCore.refl (s : State) : SameCore s s := by constructor <;> rfl

theorem SameCore.trans {s t u : State} (h : SameCore s t) (h' : SameCore t u) : SameCore s u where
  regs := h'.regs.trans h.regs
  pc := h'.pc.trans h.pc
  priv := h'.priv.trans h.priv
  csr := h'.csr.trans h.csr
  cfg := h'.cfg.trans h.cfg
  parked := h'.parked.trans h.parked
  evTrap := h'.evTrap.trans h.evTrap
  agenda := h'.agenda.trans h.agenda

theorem SamePrivate.core {s t : State} (h : SamePrivate s t) : SameCore s t :=
  ⟨h.regs, h.pc, h.priv, h.csr, h.cfg, h.parked, h.evTrap, h.agenda⟩

theorem mmioCall_core (acc : Config.MmioAccess) (s : State) : SameCore s (mmioCall acc s) := by
  obtain ⟨hregs, hpc, hpriv, hcsr, -, -, hcfg, hparked, hevTrap, hagenda, -⟩ := mmioCall_frame acc s
  exact ⟨hregs, hpc, hpriv, hcsr, hcfg, hparked, hevTrap, hagenda⟩

theorem ramWrite_core (pa : PhysAddr) (n : Nat) (v : Word) (s : State) : SameCore s (ramWrite pa n v s) := by
  constructor <;> simp

theorem Reaches.core {s t : State} (h : Reaches s t) : SameCore s t := by
  induction h with
  | refl => exact .refl s
  | interleave _ ih => exact ih.trans (interleave_private _).core
  | orAD ty _ _ ih => exact ih.trans (by constructor <;> rfl)
  | tlbFill va ty pa _ ih => exact ih.trans (tlbFill_private ..).core
  | flushTlb _ ih => exact ih.trans (by constructor <;> rfl)
  | mmioCall acc _ ih => exact ih.trans (mmioCall_core acc _)
  | ramWrite v _ _ ih => exact ih.trans (ramWrite_core ..)
  | unreserve _ ih => exact ih.trans (by constructor <;> rfl)

/-! ## Time never decreases (R483) -/

@[simp] theorem deviceAct_time (s : State) (a : Config.DeviceAction) : (deviceAct s a).time = s.time := by
  cases a <;> rfl

@[simp] theorem otherHartStore_time (h : Nat) (pa : PhysAddr) (w : Width) (v : Word) (s : State) :
    (otherHartStore h pa w v s).time = s.time := by
  unfold otherHartStore
  split
  · split <;> simp
  · rfl

@[simp] theorem mmioCall_time (acc : Config.MmioAccess) (s : State) : (mmioCall acc s).time = s.time :=
  foldl_deviceAct_keeps (·.time) deviceAct_time _ _

theorem agentAct_time_le (s : State) (a : AgentAction) : s.time.toNat ≤ (agentAct s a).time.toNat := by
  cases a with
  | device a => simp [agentAct]
  | deviceState n => exact Nat.le_refl _
  | timer => simp only [agentAct]; split <;> simp
  | timeTo t =>
    simp only [agentAct]
    split
    · rename_i h; simpa [BitVec.ule] using h
    · exact Nat.le_refl _
  | otherHartStore h pa w v => simp [agentAct]

/-- What holds of a state whatever it lists for later memory events, and every action of another agent keeps, holds at
the memory event (R141). -/
theorem interleave_induction {P : State → Prop} {s : State} (hs : ∀ l, P { s with interleaved := l })
    (hact : ∀ t a, P t → P (agentAct t a)) : P (interleave s) := by
  unfold interleave
  split
  next h => simpa [← h] using hs s.interleaved
  next actions rest _ => exact List.foldlRecOn actions agentAct (hs rest) fun t ht a _ => hact t a ht

theorem interleave_time_le (s : State) : s.time.toNat ≤ (interleave s).time.toNat :=
  interleave_induction (P := fun t => s.time.toNat ≤ t.time.toNat) (fun _ => Nat.le_refl _)
    fun t a h => h.trans (agentAct_time_le t a)

theorem Reaches.time_le {s t : State} (h : Reaches s t) : s.time.toNat ≤ t.time.toNat := by
  induction h with
  | refl => exact Nat.le_refl _
  | interleave _ ih => exact ih.trans (interleave_time_le _)
  | orAD ty _ _ ih => exact ih
  | tlbFill va ty pa _ ih => simpa using ih
  | flushTlb _ ih => exact ih
  | mmioCall acc _ ih => simpa using ih
  | ramWrite v _ _ ih => simpa using ih
  | unreserve _ ih => exact ih

end Sys2Proof.Machine
end

section
/-! What an instruction can do, said once: it commits, sets a reservation, traps, accesses a CSR, returns from a trap, or
waits. The invariant of the machine, its frames and its privilege rules are read off from this. -/

namespace Sys2Proof.Machine

/-! ## Even addresses and page offsets -/

theorem isEven_iff (w : Word) : isEven w = true ↔ w.toNat % 2 = 0 := by
  simp only [isEven, Bool.not_eq_true', BitVec.getLsbD, Nat.testBit_zero, decide_eq_false_iff_not]
  omega

theorem isEven_add {a b : Word} (ha : isEven a = true) (hb : isEven b = true) : isEven (a + b) = true := by
  rw [isEven_iff] at *
  rw [BitVec.toNat_add]
  omega

theorem isEven_sext {n : Nat} {off : BitVec n} (hn : 0 < n) (h : offsetAligned off 1 = true) :
    isEven (sext off) = true := by
  have h0 : off.getLsbD 0 = false := by
    have := congrArg (BitVec.getLsbD · 0) (of_decide_eq_true h)
    simpa using this
  simpa [isEven, sext, BitVec.getElem_signExtend, hn] using h0

theorem isEven_indirectTarget (base off : Word) : isEven (indirectTarget base off) = true := by
  simp [isEven, indirectTarget]

/-- A translation keeps the offset in the page (R120, R123). -/
theorem translate_offset {va : Word} {ty : AccessType} {s s' : State} {pa : PhysAddr}
    (h : translate va ty s = .ok pa s') : pa.extractLsb' 0 12 = va.extractLsb' 0 12 := by
  have hle : ∀ {n m : Nat} (a : BitVec n) (b : BitVec m), 12 ≤ m → (a ++ b).extractLsb' 0 12 = b.extractLsb' 0 12 := by
    intro n m a b hm
    apply BitVec.eq_of_getLsbD_eq
    intro j hj
    simp [BitVec.getLsbD_append, hj, show j < m by omega]
  simp only [Machine.translate] at h
  split at h
  · cases h
    apply BitVec.eq_of_getLsbD_eq
    intro j hj
    simp [hj, show j < 34 by omega]
  · split at h
    · cases h
      rw [hle _ _ (Nat.le_refl _), BitVec.extractLsb'_eq_self]
    · obtain ⟨pa', s1, hw, he⟩ := andThen_ok h
      cases he
      obtain ⟨-, -, ⟨-, -, -, rfl, -⟩ | ⟨-, -, -, -, -, rfl, -⟩⟩ := walk_ok hw
      · rw [hle _ _ (by omega)]
        apply BitVec.eq_of_getLsbD_eq
        intro j hj
        simp [hj]
      · rw [hle _ _ (Nat.le_refl _), BitVec.extractLsb'_eq_self]

/-- The address an atomic instruction reaches is a multiple of 4 (R325). -/
theorem atomicAddr_aligned {va : Word} {ty : AccessType} {e : Exception} {s s' : State} {pa : PhysAddr}
    (h : atomicAddr va ty e s = .ok pa s') : pa.extractLsb' 0 2 = 0#2 := by
  obtain ⟨ha, -, s1, ht, -⟩ := atomicAddr_ok h
  have hlow : ∀ {n : Nat} (b : BitVec n), b.extractLsb' 0 2 = (b.extractLsb' 0 12).extractLsb' 0 2 := by
    intro n b
    apply BitVec.eq_of_getLsbD_eq
    intro j hj
    simp [hj]
  calc pa.extractLsb' 0 2 = (va.extractLsb' 0 12).extractLsb' 0 2 := by rw [hlow pa, translate_offset ht]
    _ = va.extractLsb' 0 2 := (hlow va).symm
    _ = 0#2 := of_decide_eq_true ha

/-! ## What an instruction can do -/

/-- What executing `i` in `s` can end in. -/
inductive ExecEffect (i : Instr) (s : State) : State → Prop
  /-- after its memory events it writes a register and pc, whose new value is even for an even pc (R25) -/
  | commit {s1 : State} (rd : Reg) (v next : Word) :
      Reaches s s1 → (i.wellFormed = true → isEven s.pc = true → isEven next = true) →
      ExecEffect i s (setPc next (writeReg rd v s1))
  /-- LR.W sets the reservation on an aligned word of RAM as well (R326) -/
  | reserve {s1 : State} {aq rl : Bool} {rd rs1 : Reg} {pa : PhysAddr} (v : Word) :
      i = .lrW aq rl rd rs1 → Reaches s s1 → pa.extractLsb' 0 2 = 0#2 → inRam s1.cfg pa 4 = true →
      ExecEffect i s (advance 4#32 (writeReg rd v { s1 with rsv := some pa }))
  /-- it raises an exception (R12) -/
  | trap {s1 : State} (e : Exception) (tval : Word) : i ≠ .wfi → Reaches s s1 → ExecEffect i s (raiseException e tval s1)
  /-- it makes a CSR access the check allows (R33, R410) -/
  | csr {a : CsrAddr} {op : CsrOp} {row : CsrRow} (src : Word) (rd : Reg) :
      i ≠ .wfi → csrCheck a op s.priv = some row →
      ExecEffect i s (advance 4#32 (writeReg rd (csrValue row s) (csrAccess row op src s)))
  /-- it returns from a trap (R403) -/
  | trapReturn {x : Priv} : Spec.isTrapReturn i = true → x.above s.priv = false → ExecEffect i s (trapReturn x s)
  /-- WFI takes an interrupt that fires (R407) -/
  | interrupt {n : Nat} :
      i = .wfi → interruptScan true (eventFold s) = some n →
      ExecEffect i s (takeInterrupt n (s.pc + 4#32) (eventFold s))
  /-- WFI parks the hart (R407) -/
  | park : i = .wfi → ExecEffect i s { eventFold s with parked := true }

/-- The outcome is a next state, one that executing `i` in `s` can end in. -/
def Answers (i : Instr) (s : State) (o : Host.Outcome State Fault Refusal) : Prop :=
  ∃ t, o = .next t ∧ ExecEffect i s t

section
variable {i : Instr} {s : State}

theorem advance_writeReg (len : Word) (rd : Reg) (v : Word) (s : State) :
    advance len (writeReg rd v s) = setPc (s.pc + len) (writeReg rd v s) := by
  simp [advance, setPc]

/-- An instruction that, after its memory events, writes a register and goes on with the next one. -/
theorem advance_effect {s1 : State} {len : Word} (rd : Reg) (v : Word) (h : Reaches s s1) (hlen : isEven len = true) :
    ExecEffect i s (advance len (writeReg rd v s1)) := by
  rw [advance_writeReg]
  exact .commit rd v _ h fun _ hpc => isEven_add (h.core.pc ▸ hpc) hlen

/-- The same without a register: the write of x0 is none (R21). -/
theorem advance_effect_noReg {s1 : State} {len : Word} (h : Reaches s s1) (hlen : isEven len = true) :
    ExecEffect i s (advance len s1) :=
  advance_effect 0#5 0#32 h hlen

theorem writeBack_answers {rd : Reg} {v len : Word} (hlen : isEven len = true) : Answers i s (writeBack rd v len s) :=
  ⟨_, rfl, advance_effect rd v .refl hlen⟩

theorem jumpTo_answers {rd : Reg} {target len : Word}
    (hnext : i.wellFormed = true → isEven s.pc = true → isEven target = true) : Answers i s (jumpTo rd target len s) :=
  ⟨_, rfl, .commit rd _ _ .refl hnext⟩

theorem branchIf_answers {c : Bool} {off len : Word} (hlen : isEven len = true)
    (hoff : i.wellFormed = true → isEven off = true) : Answers i s (branchIf c off len s) := by
  refine ⟨_, rfl, ?_⟩
  cases c with
  | false => exact advance_effect_noReg .refl hlen
  | true => exact .commit 0#5 0#32 (s.pc + off) .refl fun hw hpc => isEven_add hpc (hoff hw)

theorem finish_answers {α : Type} {r : Access α} {commit : α → State → State} (hw : i ≠ .wfi) (hr : Reaches s r.state)
    (hc : ∀ a s1, r = .ok a s1 → ExecEffect i s (commit a s1)) : Answers i s (r.finish commit) := by
  cases r with
  | ok a s1 => exact ⟨_, rfl, hc a s1 rfl⟩
  | raise e tv s1 => exact ⟨_, rfl, .trap e tv hw hr⟩

/-- A part of an instruction that ends by a value has made its memory events. -/
theorem reaches_of_ok {α : Type} {r : Access α} {a : α} {s1 : State} (hr : Reaches s r.state) (h : r = .ok a s1) :
    Reaches s s1 := by
  rw [h] at hr; exact hr

theorem loadTo_answers {rd : Reg} {va : Word} {w : Width} {ext : Width → Word → Word} {len : Word} (hw : i ≠ .wfi)
    (hlen : isEven len = true) : Answers i s (loadTo rd va w ext len s) :=
  have hr := memRead_reaches va w s
  finish_answers hw hr fun _ _ h => advance_effect _ _ (reaches_of_ok hr h) hlen

theorem storeTo_answers {va : Word} {w : Width} {v len : Word} (hw : i ≠ .wfi) (hlen : isEven len = true) :
    Answers i s (storeTo va w v len s) :=
  have hr := memWrite_reaches va w v s
  finish_answers hw hr fun _ _ h => advance_effect_noReg (reaches_of_ok hr h) hlen

theorem amo_answers {f : Word → Word → Word} {rd rs2 rs1 : Reg} (hw : i ≠ .wfi) : Answers i s (amo f rd rs2 rs1 s) := by
  have hr := atomicAddr_reaches (readReg s rs1) .store .storeAddressMisaligned s
  refine finish_answers hw hr fun pa s1 h => ?_
  obtain ⟨-, hram, -⟩ := atomicAddr_ok h
  exact advance_effect _ _ ((reaches_of_ok hr h).ramWrite _ hram) rfl

theorem execScW_answers (aq rl : Bool) (rd rs2 rs1 : Reg) :
    Answers (.scW aq rl rd rs2 rs1) s (execScW aq rl rd rs2 rs1 s) := by
  have hr := atomicAddr_reaches (readReg s rs1) .store .storeAddressMisaligned s
  refine finish_answers Instr.noConfusion hr fun pa s1 h => ?_
  obtain ⟨-, hram, -⟩ := atomicAddr_ok h
  have h1 := reaches_of_ok hr h
  refine advance_effect _ _ (Reaches.unreserve ?_) rfl
  split
  · exact h1.ramWrite _ hram
  · exact h1

theorem execLrW_answers (aq rl : Bool) (rd rs1 : Reg) : Answers (.lrW aq rl rd rs1) s (execLrW aq rl rd rs1 s) := by
  have hr := atomicAddr_reaches (readReg s rs1) .load .loadAddressMisaligned s
  refine finish_answers Instr.noConfusion hr fun pa s1 h => ?_
  obtain ⟨-, hram, -⟩ := atomicAddr_ok h
  exact .reserve _ rfl (reaches_of_ok hr h) (atomicAddr_aligned h) hram

theorem raise_answers {e : Exception} {tv : Word} (hw : i ≠ .wfi) : Answers i s (.next (raiseException e tv s)) :=
  ⟨_, rfl, .trap e tv hw .refl⟩

theorem xRet_answers {x : Priv} {insn : Word} (hw : i ≠ .wfi) (hi : Spec.isTrapReturn i = true) :
    Answers i s (xRet x insn s) := by
  unfold xRet
  split
  · exact raise_answers hw
  · rename_i h; exact ⟨_, rfl, .trapReturn hi (by simpa using h)⟩

theorem execSfenceVma_answers {rs1 rs2 : Reg} (hw : i ≠ .wfi) : Answers i s (execSfenceVma rs1 rs2 s) := by
  unfold execSfenceVma
  split
  · exact raise_answers hw
  · exact ⟨_, rfl, advance_effect_noReg Reaches.refl.flushTlb rfl⟩

theorem execWfi_answers : Answers .wfi s (execWfi s) := by
  unfold execWfi
  dsimp only
  split
  · rename_i n h; exact ⟨_, rfl, .interrupt rfl h⟩
  · exact ⟨_, rfl, .park rfl⟩

theorem csrInstruction_answers {a : CsrAddr} {op : CsrOp} {src : Word} {rd : Reg} {insn : Word} (hw : i ≠ .wfi) :
    Answers i s (csrInstruction a op src rd insn s) := by
  rcases csrInstruction_next a op src rd insn s with ⟨-, h⟩ | ⟨row, hrow, h⟩
  · rw [h]; exact raise_answers hw
  · rw [h]; exact ⟨_, rfl, .csr src rd hw hrow⟩

end

/-- Every instruction answers a next state, by one of these effects (R514). -/
theorem exec_answers (i : Instr) (s : State) : Answers i s (exec i s) := by
  cases i with
  | lui | auipc | addi | slti | sltiu | xori | ori | andi | slli | srli | srai | add | sub | sll | slt | sltu | xor | srl
  | sra | or | and | mul | mulh | mulhsu | mulhu | div | divu | rem | remu | cAddi4spn | cNop | cAddi | cLi | cAddi16sp
  | cLui | cSrli | cSrai | cAndi | cSub | cXor | cOr | cAnd | cSlli | cMv | cAdd => exact writeBack_answers rfl
  | jal rd off => exact jumpTo_answers fun hw hpc => isEven_add hpc (isEven_sext (by omega) hw)
  | cJal off | cJ off => exact jumpTo_answers fun hw hpc => isEven_add hpc (isEven_sext (by omega) hw)
  | jalr | cJr | cJalr => exact jumpTo_answers fun _ _ => isEven_indirectTarget ..
  | beq rs1 rs2 off | bne rs1 rs2 off | blt rs1 rs2 off | bge rs1 rs2 off | bltu rs1 rs2 off | bgeu rs1 rs2 off =>
    exact branchIf_answers rfl fun hw => isEven_sext (by omega) hw
  | cBeqz rs1 off | cBnez rs1 off =>
    exact branchIf_answers rfl fun hw => isEven_sext (by omega) (Bool.and_eq_true_iff.mp hw).2
  | lb | lh | lw | lbu | lhu | cLw | cLwsp => exact loadTo_answers Instr.noConfusion rfl
  | sb | sh | sw | cSw | cSwsp => exact storeTo_answers Instr.noConfusion rfl
  | fence | fenceI => exact ⟨_, rfl, advance_effect_noReg .refl rfl⟩
  | ecall | ebreak | cIllegal | cEbreak => exact raise_answers Instr.noConfusion
  | uret => exact xRet_answers (x := .user) (insn := (encode .uret).bits) Instr.noConfusion rfl
  | sret => exact xRet_answers (x := .supervisor) Instr.noConfusion rfl
  | mret => exact xRet_answers (x := .machine) Instr.noConfusion rfl
  | wfi => exact execWfi_answers
  | sfenceVma => exact execSfenceVma_answers Instr.noConfusion
  | csrrw | csrrs | csrrc | csrrwi | csrrsi | csrrci => exact csrInstruction_answers Instr.noConfusion
  | lrW aq rl rd rs1 => exact execLrW_answers aq rl rd rs1
  | scW aq rl rd rs2 rs1 => exact execScW_answers aq rl rd rs2 rs1
  | amoswapW | amoaddW | amoxorW | amoandW | amoorW | amominW | amomaxW | amominuW | amomaxuW =>
    exact amo_answers Instr.noConfusion

theorem exec_effect {i : Instr} {s t : State} (h : exec i s = .next t) : ExecEffect i s t := by
  obtain ⟨u, hu, he⟩ := exec_answers i s
  cases hu.symm.trans h
  exact he

end Sys2Proof.Machine
end

section
/-! The CSR layer: storage read after write, what the map of R37 says of its rows, the access check of R33, and the frame
of a CSR access. -/

namespace Sys2Proof.Machine

/-! ## Storage -/

theorem getLsbD_merge (mask old v : Word) {j : Nat} (hj : j < 32) :
    (Spec.merge mask old v).getLsbD j = if mask.getLsbD j then v.getLsbD j else old.getLsbD j := by
  simp only [Spec.merge, BitVec.getLsbD_or, BitVec.getLsbD_and, BitVec.getLsbD_not, hj, decide_true, Bool.true_and]
  cases mask.getLsbD j <;> simp

/-- A write under the mask 0 keeps the old value. -/
theorem merge_zero (old v : Word) : Spec.merge 0#32 old v = old :=
  BitVec.eq_of_getLsbD_eq fun j hj => by simp [getLsbD_merge _ _ _ hj]

/-- The constants of R61. -/
def CsrStorage.isConstant : CsrStorage → Bool
  | .constant _ => true
  | _ => false

/-- A constant keeps its value whatever is stored (R61). -/
@[simp] theorem readStorage_constant (c : CsrFile) (w : Word) : readStorage c (.constant w) = w := rfl

theorem readStorage_writeStorage_same {st : CsrStorage} (h : st.isConstant = false) (c : CsrFile) (v : Word) :
    readStorage (writeStorage c st v) st = v := by
  cases st with
  | tvec p | epc p | cause p | tval p | scratch p => simp [readStorage, writeStorage, Banked.get_set]
  | constant w => cases h
  | _ => rfl

/-- Over every pair of distinct registers; the elements of one array differ by their level. -/
theorem readStorage_writeStorage_other {st st' : CsrStorage} (h : st' ≠ st) (c : CsrFile) (v : Word) :
    readStorage (writeStorage c st v) st' = readStorage c st' := by
  cases st <;> cases st' <;> simp_all [readStorage, writeStorage, Banked.get_set]

/-- The storage that has no CSR address (R36). -/
@[simp] theorem writeStorage_uedeleg (c : CsrFile) (st : CsrStorage) (v : Word) :
    (writeStorage c st v).uedeleg = c.uedeleg := by cases st <;> rfl
@[simp] theorem writeStorage_uideleg (c : CsrFile) (st : CsrStorage) (v : Word) :
    (writeStorage c st v).uideleg = c.uideleg := by cases st <;> rfl
@[simp] theorem writeStorage_ucounteren (c : CsrFile) (st : CsrStorage) (v : Word) :
    (writeStorage c st v).ucounteren = c.ucounteren := by cases st <;> rfl

/-! ## The map (R37) -/

theorem csrFind_some {a : CsrAddr} {row : CsrRow} (h : csrFind a = some row) : row ∈ csrTable ∧ row.addr = a :=
  ⟨List.mem_of_find?_eq_some h, by simpa using List.find?_some h⟩

/-- No two rows have one address, so a row is what its address finds. -/
theorem csrFind_addr {row : CsrRow} (h : row ∈ csrTable) : csrFind row.addr = some row := by
  have key : ∀ r ∈ csrTable, csrFind r.addr = some r := by decide
  exact key row h

theorem csrTable_constant_wmask {row : CsrRow} (h : row ∈ csrTable) (hs : row.storage.isConstant = true) :
    row.wmask = 0#32 := by
  have key : ∀ r ∈ csrTable, r.storage.isConstant = true → r.wmask = 0#32 := by decide
  exact key row h hs

theorem csrTable_hartid_wmask {row : CsrRow} (h : row ∈ csrTable) (hs : row.storage = .hartid) : row.wmask = 0#32 := by
  have key : ∀ r ∈ csrTable, r.storage = .hartid → r.wmask = 0#32 := by decide
  exact key row h hs

/-! ## The access check (R33) -/

theorem csrCheck_eq_some_iff {a : CsrAddr} {op : CsrOp} {p : Priv} {row : CsrRow} :
    csrCheck a op p = some row ↔
      (a.extractLsb' 8 2).toNat ≤ p.code.toNat ∧ csrFind a = some row ∧ ¬ (a.extractLsb' 10 2 = 3#2 ∧ op ≠ .read) := by
  unfold csrCheck
  by_cases hp : p.code.ult (a.extractLsb' 8 2) = true
  · have : ¬ (a.extractLsb' 8 2).toNat ≤ p.code.toNat := by simpa [BitVec.ult] using hp
    simp only [hp, if_true, reduceCtorEq, this, false_and]
  · have : (a.extractLsb' 8 2).toNat ≤ p.code.toNat := by simpa [BitVec.ult] using hp
    rw [if_neg hp]
    cases csrFind a with
    | none => simp
    | some r => simp only [this, true_and]; split <;> simp_all

theorem csrCheck_of_allowed {a : CsrAddr} {op : CsrOp} {s : State} {row : CsrRow} (h : Spec.CsrAllowed a op s)
    (hr : csrFind a = some row) : csrCheck a op s.priv = some row :=
  csrCheck_eq_some_iff.mpr ⟨h.1, hr, h.2.2⟩

theorem csrCheck_of_not_allowed {a : CsrAddr} {op : CsrOp} {s : State} (h : ¬ Spec.CsrAllowed a op s) :
    csrCheck a op s.priv = none := by
  rw [Option.eq_none_iff_forall_ne_some]
  intro row hrow
  obtain ⟨hp, hf, hro⟩ := csrCheck_eq_some_iff.mp hrow
  exact h ⟨hp, by simp [hf], hro⟩

theorem mem_csrTable_of_csrCheck {a : CsrAddr} {op : CsrOp} {p : Priv} {row : CsrRow} (h : csrCheck a op p = some row) :
    row ∈ csrTable :=
  (csrFind_some (csrCheck_eq_some_iff.mp h).2.1).1

/-! ## The access (R31) -/

section
variable (row : CsrRow) (op : CsrOp) (src : Word) (s : State)

@[simp] theorem csrAccess_regs : (csrAccess row op src s).regs = s.regs := (congrArg State.regs (csrAccess_frame row op src s) :)
@[simp] theorem csrAccess_pc : (csrAccess row op src s).pc = s.pc := (congrArg State.pc (csrAccess_frame row op src s) :)
@[simp] theorem csrAccess_priv : (csrAccess row op src s).priv = s.priv := (congrArg State.priv (csrAccess_frame row op src s) :)
@[simp] theorem csrAccess_time : (csrAccess row op src s).time = s.time := (congrArg State.time (csrAccess_frame row op src s) :)
@[simp] theorem csrAccess_timecmp : (csrAccess row op src s).timecmp = s.timecmp :=
  (congrArg State.timecmp (csrAccess_frame row op src s) :)
@[simp] theorem csrAccess_evTrap : (csrAccess row op src s).evTrap = s.evTrap :=
  (congrArg State.evTrap (csrAccess_frame row op src s) :)
@[simp] theorem csrAccess_evIntMask : (csrAccess row op src s).evIntMask = s.evIntMask :=
  (congrArg State.evIntMask (csrAccess_frame row op src s) :)
@[simp] theorem csrAccess_parked : (csrAccess row op src s).parked = s.parked :=
  (congrArg State.parked (csrAccess_frame row op src s) :)
@[simp] theorem csrAccess_rsv : (csrAccess row op src s).rsv = s.rsv := (congrArg State.rsv (csrAccess_frame row op src s) :)
@[simp] theorem csrAccess_mem : (csrAccess row op src s).mem = s.mem := (congrArg State.mem (csrAccess_frame row op src s) :)
@[simp] theorem csrAccess_cfg : (csrAccess row op src s).cfg = s.cfg := (congrArg State.cfg (csrAccess_frame row op src s) :)
@[simp] theorem csrAccess_devices : (csrAccess row op src s).devices = s.devices :=
  (congrArg State.devices (csrAccess_frame row op src s) :)
@[simp] theorem csrAccess_mmioLog : (csrAccess row op src s).mmioLog = s.mmioLog :=
  (congrArg State.mmioLog (csrAccess_frame row op src s) :)
@[simp] theorem csrAccess_agenda : (csrAccess row op src s).agenda = s.agenda :=
  (congrArg State.agenda (csrAccess_frame row op src s) :)
@[simp] theorem csrAccess_interleaved : (csrAccess row op src s).interleaved = s.interleaved :=
  (congrArg State.interleaved (csrAccess_frame row op src s) :)

theorem csrAccess_read : csrAccess row .read src s = s := rfl

@[simp] theorem csrEffect_csr (e : CsrEffect) (c : TranslationContext) : (csrEffect e c s).csr = s.csr := by
  cases e <;> simp [csrEffect]

/-- The word an access other than a read stores: the new value through the write mask in force (R31, R41). -/
def csrStored : Word :=
  let new := csrNewValue op (csrValue row s) src
  Spec.merge (csrWriteMask row new) (readStorage s.csr row.storage) new

variable {row op src s}

theorem csrAccess_csr (h : op ≠ .read) :
    (csrAccess row op src s).csr = writeStorage s.csr row.storage (csrStored row op src s) := by
  simp [csrAccess, h, csrStored, Spec.merge]

theorem csrWriteMask_of_ne_status (h : row.storage ≠ .status) (new : Word) : csrWriteMask row new = row.wmask := by
  simp [csrWriteMask, h]

theorem csrStored_of_ne_status (h : row.storage ≠ .status) : csrStored row op src s =
    Spec.merge row.wmask (readStorage s.csr row.storage) (csrNewValue op (csrValue row s) src) := by
  simp [csrStored, csrWriteMask_of_ne_status h]

/-- An access changes the storage of its own row only. -/
theorem readStorage_csrAccess_other {st : CsrStorage} (h : st ≠ row.storage) :
    readStorage (csrAccess row op src s).csr st = readStorage s.csr st := by
  by_cases hop : op = .read
  · rw [hop, csrAccess_read]
  · rw [csrAccess_csr hop, readStorage_writeStorage_other h]

/-- What a write leaves in the storage of its row; a constant, whose row has the write mask 0, keeps its value. -/
theorem readStorage_csrAccess_same (hrow : row ∈ csrTable) (hop : op ≠ .read) :
    readStorage (csrAccess row op src s).csr row.storage = csrStored row op src s := by
  rw [csrAccess_csr hop]
  cases hc : row.storage.isConstant with
  | false => rw [readStorage_writeStorage_same hc]
  | true =>
    have hne : row.storage ≠ .status := fun h => by simp [h, CsrStorage.isConstant] at hc
    rw [csrStored_of_ne_status hne, csrTable_constant_wmask hrow hc, merge_zero]
    cases hs : row.storage <;> simp_all [CsrStorage.isConstant]

/-- mhartid cannot be written (R58). -/
theorem csrAccess_hartid (hrow : row ∈ csrTable) : (csrAccess row op src s).csr.hartid = s.csr.hartid := by
  by_cases hop : op = .read
  · rw [hop, csrAccess_read]
  · by_cases hs : row.storage = .hartid
    · have h := readStorage_csrAccess_same (src := src) (s := s) hrow hop
      rw [csrStored_of_ne_status (by simp [hs]), csrTable_hartid_wmask hrow hs, merge_zero, hs] at h
      exact h
    · exact readStorage_csrAccess_other (st := .hartid) fun h => hs h.symm

@[simp] theorem csrAccess_uedeleg : (csrAccess row op src s).csr.uedeleg = s.csr.uedeleg := by
  by_cases hop : op = .read
  · rw [hop, csrAccess_read]
  · rw [csrAccess_csr hop, writeStorage_uedeleg]

@[simp] theorem csrAccess_uideleg : (csrAccess row op src s).csr.uideleg = s.csr.uideleg := by
  by_cases hop : op = .read
  · rw [hop, csrAccess_read]
  · rw [csrAccess_csr hop, writeStorage_uideleg]

@[simp] theorem csrAccess_ucounteren : (csrAccess row op src s).csr.ucounteren = s.csr.ucounteren := by
  by_cases hop : op = .read
  · rw [hop, csrAccess_read]
  · rw [csrAccess_csr hop, writeStorage_ucounteren]

end

end Sys2Proof.Machine
end

section
/-! What one step can do, said once (R470, R471), and what no step changes. -/

namespace Sys2Proof.Machine

/-! ## One step -/

/-- The hart woken and out of its wait, as it fetches (R470). -/
def readyToFetch (s : State) : State := { wake s with parked := false }

/-- What a turn can end in that begins in `s`, the turn already taken from the agenda (R470, R471). -/
inductive StepEffect (s : State) : State → Prop
  | agent (a : AgentAction) : StepEffect s (agentAct s a)
  | parked : StepEffect s s
  | interrupt {n : Nat} : boundaryInterrupt s = some n → StepEffect s (takeInterrupt n s.pc (wake s))
  /-- the fetch raises, or the bits are no instruction -/
  | fetchTrap {s1 : State} (e : Exception) (tval : Word) :
      Reaches (readyToFetch s) s1 → StepEffect s (rearm (raiseException e tval s1))
  | run {raw : RawInsn} {i : Instr} {s1 u : State} :
      fetchInstruction (readyToFetch s) = .ok raw s1 → decodeRaw raw = .ok i → exec i s1 = .next u →
      StepEffect s (rearm u)

theorem runInstruction_effect {s t : State} (h : rearmOutcome (runInstruction (readyToFetch s)) = .next t) :
    StepEffect s t := by
  have hf := fetchInstruction_reaches (readyToFetch s)
  unfold runInstruction at h
  split at h
  next e tv s1 he =>
    cases h
    rw [he] at hf
    exact .fetchTrap e tv hf
  next raw s1 he =>
    split at h
    next i hi =>
      cases hu : exec i s1 with
      | next u => rw [hu] at h; cases h; exact .run he hi hu
      | fault f => cases f
      | refused r => rw [hu] at h; cases h
    next =>
      cases h
      rw [he] at hf
      exact .fetchTrap _ _ hf

theorem hartStep_effect {s t : State} (h : hartStep s = .next t) : StepEffect s t := by
  rcases hartStep_cases s with ⟨-, -, hs⟩ | ⟨n, hn, hs⟩ | ⟨-, hs⟩
  · cases hs.symm.trans h; exact .parked
  · cases hs.symm.trans h; exact .interrupt hn
  · exact runInstruction_effect (hs.symm.trans h)

theorem step_effect {s t : State} (h : step s = .next t) : ∃ l, StepEffect { s with agenda := l } t := by
  unfold step at h
  split at h
  · cases h
  · split at h
    next ha => exact ⟨s.agenda, hartStep_effect h⟩
    next rest _ => exact ⟨rest, hartStep_effect h⟩
    next a rest _ => cases h; exact ⟨rest, .agent a⟩

/-! ## The wake and the end of the pass -/

@[simp] theorem wake_regs (s : State) : (wake s).regs = s.regs := by unfold wake; split <;> rfl
@[simp] theorem wake_pc (s : State) : (wake s).pc = s.pc := by unfold wake; split <;> rfl
@[simp] theorem wake_priv (s : State) : (wake s).priv = s.priv := by unfold wake; split <;> rfl
@[simp] theorem wake_tlb (s : State) : (wake s).tlb = s.tlb := by unfold wake; split <;> rfl
@[simp] theorem wake_time (s : State) : (wake s).time = s.time := by unfold wake; split <;> rfl
@[simp] theorem wake_evTrap (s : State) : (wake s).evTrap = s.evTrap := by unfold wake; split <;> rfl
@[simp] theorem wake_rsv (s : State) : (wake s).rsv = s.rsv := by unfold wake; split <;> rfl
@[simp] theorem wake_mem (s : State) : (wake s).mem = s.mem := by unfold wake; split <;> rfl
@[simp] theorem wake_cfg (s : State) : (wake s).cfg = s.cfg := by unfold wake; split <;> rfl

/-- The wake may fold posted bits into ip; it changes no other CSR (R464). -/
theorem wake_csr (s : State) : (wake s).csr = { s.csr with ip := (wake s).csr.ip } := by unfold wake; split <;> rfl

@[simp] theorem rearm_regs (s : State) : (rearm s).regs = s.regs := by unfold rearm; split <;> rfl
@[simp] theorem rearm_pc (s : State) : (rearm s).pc = s.pc := by unfold rearm; split <;> rfl
@[simp] theorem rearm_priv (s : State) : (rearm s).priv = s.priv := by unfold rearm; split <;> rfl
@[simp] theorem rearm_csr (s : State) : (rearm s).csr = s.csr := by unfold rearm; split <;> rfl
@[simp] theorem rearm_tlb (s : State) : (rearm s).tlb = s.tlb := by unfold rearm; split <;> rfl
@[simp] theorem rearm_time (s : State) : (rearm s).time = s.time := by unfold rearm; split <;> rfl
@[simp] theorem rearm_evTrap (s : State) : (rearm s).evTrap = s.evTrap := by unfold rearm; split <;> rfl
@[simp] theorem rearm_evInt (s : State) : (rearm s).evInt = s.evInt := by unfold rearm; split <;> rfl
@[simp] theorem rearm_evIntMask (s : State) : (rearm s).evIntMask = s.evIntMask := by unfold rearm; split <;> rfl
@[simp] theorem rearm_rsv (s : State) : (rearm s).rsv = s.rsv := by unfold rearm; split <;> rfl
@[simp] theorem rearm_mem (s : State) : (rearm s).mem = s.mem := by unfold rearm; split <;> rfl
@[simp] theorem rearm_cfg (s : State) : (rearm s).cfg = s.cfg := by unfold rearm; split <;> rfl

/-! ## What no step changes -/

/-- The parameters, hartid and the storage that has no CSR address are the same in `t`, and time has not decreased. -/
structure SameConfig (s t : State) : Prop where
  cfg : t.cfg = s.cfg
  hartid : t.csr.hartid = s.csr.hartid
  uedeleg : t.csr.uedeleg = s.csr.uedeleg
  uideleg : t.csr.uideleg = s.csr.uideleg
  ucounteren : t.csr.ucounteren = s.csr.ucounteren
  time : s.time.toNat ≤ t.time.toNat

theorem SameConfig.trans {s t u : State} (h : SameConfig s t) (h' : SameConfig t u) : SameConfig s u where
  cfg := h'.cfg.trans h.cfg
  hartid := h'.hartid.trans h.hartid
  uedeleg := h'.uedeleg.trans h.uedeleg
  uideleg := h'.uideleg.trans h.uideleg
  ucounteren := h'.ucounteren.trans h.ucounteren
  time := h.time.trans h'.time

theorem Reaches.sameConfig {s t : State} (h : Reaches s t) : SameConfig s t := by
  have hcsr := h.core.csr
  exact ⟨h.core.cfg, by rw [hcsr], by rw [hcsr], by rw [hcsr], by rw [hcsr], h.time_le⟩

theorem takeTrap_sameConfig (p : Priv) (c tv ev : Word) (s : State) : SameConfig s (takeTrap p c tv ev s) := by
  constructor <;> simp

theorem eventFold_sameConfig (s : State) : SameConfig s (eventFold s) := by constructor <;> simp

theorem csrAccess_sameConfig {row : CsrRow} (op : CsrOp) (src : Word) (s : State) (hrow : row ∈ csrTable) :
    SameConfig s (csrAccess row op src s) := by
  constructor <;> simp [csrAccess_hartid hrow]

theorem ExecEffect.sameConfig {i : Instr} {s t : State} (h : ExecEffect i s t) : SameConfig s t := by
  cases h with
  | commit rd v next hr _ => exact hr.sameConfig.trans (by constructor <;> simp)
  | reserve v _ hr _ _ => exact hr.sameConfig.trans (by constructor <;> simp)
  | trap e tv _ hr => exact hr.sameConfig.trans (takeTrap_sameConfig ..)
  | @csr a op row src rd _ hrow =>
    exact (csrAccess_sameConfig op src s (mem_csrTable_of_csrCheck hrow)).trans (by constructor <;> simp)
  | trapReturn => constructor <;> simp
  | interrupt => exact (eventFold_sameConfig s).trans (takeTrap_sameConfig ..)
  | park => exact ⟨rfl, rfl, rfl, rfl, rfl, Nat.le_refl _⟩

theorem wake_sameConfig (s : State) : SameConfig s (wake s) := by
  unfold wake
  split <;> exact ⟨rfl, rfl, rfl, rfl, rfl, Nat.le_refl _⟩

theorem readyToFetch_sameConfig (s : State) : SameConfig s (readyToFetch s) :=
  (wake_sameConfig s).trans ⟨rfl, rfl, rfl, rfl, rfl, Nat.le_refl _⟩

theorem rearm_sameConfig (s : State) : SameConfig s (rearm s) := by constructor <;> simp

theorem StepEffect.sameConfig {s t : State} (h : StepEffect s t) : SameConfig s t := by
  cases h with
  | agent a => exact ⟨by simp, by simp, by simp, by simp, by simp, agentAct_time_le s a⟩
  | parked => exact Reaches.refl.sameConfig
  | interrupt _ => exact (wake_sameConfig s).trans (takeTrap_sameConfig ..)
  | fetchTrap e tv hr =>
    exact (((readyToFetch_sameConfig s).trans hr.sameConfig).trans (takeTrap_sameConfig ..)).trans (rearm_sameConfig _)
  | run hf _ hx =>
    have hr := reaches_of_ok (fetchInstruction_reaches _) hf
    exact (((readyToFetch_sameConfig s).trans hr.sameConfig).trans (exec_effect hx).sameConfig).trans (rearm_sameConfig _)

/-- Settles O6: each effect of a step leaves the configuration, and time only moves forward. -/
theorem configurationFixed : Obligations.ConfigurationFixed := by
  intro s t h
  obtain ⟨l, he⟩ := step_effect h
  obtain ⟨hcfg, hhart, hed, hid, hcnt, htime⟩ := he.sameConfig
  exact ⟨hcfg, hhart, hed, hid, hcnt, htime⟩

end Sys2Proof.Machine
end

section
/-! What the decoder reads is well formed: the offsets it puts together end in zeros, the 3-bit fields name x8 to x15, and
the excluded operands are rejected (R178, R182, R379). -/

namespace Sys2Proof

/-- If it is an instruction, it is well formed. -/
def wellFormedIfOk : Except Reject Instr → Bool
  | .ok i => i.wellFormed
  | .error _ => true

/-- An immediate put together with `k` zeros at its end is a multiple of 2^k. -/
@[simp] theorem offsetAligned_append {n : Nat} (a : BitVec n) (k : Nat) : offsetAligned (a ++ 0#k) k = true := by
  simp only [offsetAligned, decide_eq_true_eq]
  apply BitVec.eq_of_getLsbD_eq
  intro j hj
  simp [BitVec.getLsbD_append, hj]

theorem isCompressed_append (a : BitVec 3) : Reg.isCompressed (1#2 ++ a) = true := by
  revert a; decide

@[simp] theorem cLow_isCompressed (h : Half) : (cLow h).isCompressed = true := isCompressed_append _
@[simp] theorem cHigh_isCompressed (h : Half) : (cHigh h).isCompressed = true := isCompressed_append _

/-! ## 32-bit instructions -/

theorem decodeLoad_wellFormed (w : Word) : wellFormedIfOk (decodeLoad w) = true := by
  unfold decodeLoad; split <;> rfl

theorem decodeMiscMem_wellFormed (w : Word) : wellFormedIfOk (decodeMiscMem w) = true := by
  unfold decodeMiscMem; split <;> rfl

theorem decodeOpImm_wellFormed (w : Word) : wellFormedIfOk (decodeOpImm w) = true := by
  unfold decodeOpImm
  split
  case h_7 => split <;> rfl
  case h_8 => split <;> rfl
  all_goals rfl

theorem decodeStore_wellFormed (w : Word) : wellFormedIfOk (decodeStore w) = true := by
  unfold decodeStore; split <;> rfl

theorem decodeAmo_wellFormed (w : Word) : wellFormedIfOk (decodeAmo w) = true := by
  unfold decodeAmo
  split
  · split
    case h_1 => split <;> rfl
    all_goals rfl
  · rfl

theorem decodeOp_wellFormed (w : Word) : wellFormedIfOk (decodeOp w) = true := by
  unfold decodeOp; split <;> rfl

theorem decodeBranch_wellFormed (w : Word) : wellFormedIfOk (decodeBranch w) = true := by
  have hb : offsetAligned (immB w) 1 = true := offsetAligned_append _ 1
  unfold decodeBranch; split <;> simp [wellFormedIfOk, Instr.wellFormed, hb]

theorem decodeSystem_wellFormed (w : Word) : wellFormedIfOk (decodeSystem w) = true := by
  unfold decodeSystem
  split
  case h_1 => unfold decodeSystemWord; split_ifs <;> rfl
  all_goals rfl

theorem decode32_wellFormed (w : Word) : wellFormedIfOk (decode32 w) = true := by
  unfold decode32
  split
  · exact decodeLoad_wellFormed w
  · exact decodeMiscMem_wellFormed w
  · exact decodeOpImm_wellFormed w
  · rfl
  · exact decodeStore_wellFormed w
  · exact decodeAmo_wellFormed w
  · exact decodeOp_wellFormed w
  · rfl
  · exact decodeBranch_wellFormed w
  · split <;> rfl
  · exact offsetAligned_append _ 1
  · exact decodeSystem_wellFormed w
  · rfl

/-! ## 16-bit instructions -/

theorem decodeQ0_wellFormed (h : Half) : wellFormedIfOk (decodeQ0 h) = true := by
  have hspn : offsetAligned (cImmSpn h) 2 = true := offsetAligned_append _ 2
  have hls : offsetAligned (cImmLs h) 2 = true := offsetAligned_append _ 2
  unfold decodeQ0
  split
  case h_1 => split_ifs <;> simp_all [wellFormedIfOk, Instr.wellFormed]
  all_goals simp [wellFormedIfOk, Instr.wellFormed, hls]

theorem decodeQ1Alu_wellFormed (h : Half) : wellFormedIfOk (decodeQ1Alu h) = true := by
  unfold decodeQ1Alu
  split
  · split_ifs <;> simp [wellFormedIfOk, Instr.wellFormed]
  · split_ifs <;> simp [wellFormedIfOk, Instr.wellFormed]
  · simp [wellFormedIfOk, Instr.wellFormed]
  · split_ifs
    · split <;> simp [wellFormedIfOk, Instr.wellFormed]
    · rfl

/-- C.ADDI16SP and C.LUI share the six bits of their immediate (R359, R360). -/
theorem cImm6_eq_zero_of_cImm16sp {h : Half} (h0 : cImm16sp h = 0#10) : cImm6 h = 0#6 := by
  have bit (j : Nat) : (cImm16sp h).getLsbD j = false := by simp [h0]
  have b4 := bit 4
  have b5 := bit 5
  have b6 := bit 6
  have b7 := bit 7
  have b8 := bit 8
  have b9 := bit 9
  simp only [cImm16sp, BitVec.getLsbD_append, BitVec.getLsbD_extractLsb'] at b4 b5 b6 b7 b8 b9
  apply BitVec.eq_of_getLsbD_eq
  intro j hj
  simp only [cImm6, BitVec.getLsbD_append, BitVec.getLsbD_extractLsb']
  interval_cases j <;> simp_all
theorem decodeQ1_wellFormed (h : Half) : wellFormedIfOk (decodeQ1 h) = true := by
  have hj : offsetAligned (cImmJ h) 1 = true := offsetAligned_append _ 1
  have hb : offsetAligned (cImmB h) 1 = true := offsetAligned_append _ 1
  have hsp : offsetAligned (cImm16sp h) 4 = true := offsetAligned_append _ 4
  have hsp0 : cImm6 h ≠ 0#6 → cImm16sp h ≠ 0#10 := mt cImm6_eq_zero_of_cImm16sp
  unfold decodeQ1
  split
  case h_1 => split_ifs <;> simp_all [wellFormedIfOk, Instr.wellFormed]
  case h_4 => split_ifs <;> simp_all [wellFormedIfOk, Instr.wellFormed]
  case h_5 => exact decodeQ1Alu_wellFormed h
  all_goals simp [wellFormedIfOk, Instr.wellFormed, hj, hb]

theorem decodeQ2_wellFormed (h : Half) : wellFormedIfOk (decodeQ2 h) = true := by
  have hlw : offsetAligned (cImmLwsp h) 2 = true := offsetAligned_append _ 2
  have hsw : offsetAligned (cImmSwsp h) 2 = true := offsetAligned_append _ 2
  unfold decodeQ2
  split
  case h_1 => split_ifs <;> rfl
  case h_2 => split_ifs <;> simp_all [wellFormedIfOk, Instr.wellFormed]
  case h_3 => unfold decodeQ2Jump; split_ifs <;> simp_all [wellFormedIfOk, Instr.wellFormed]
  all_goals simp [wellFormedIfOk, Instr.wellFormed, hsw]

/-- Every instruction the decoder reads is well formed. -/
theorem decodeRaw_wellFormed {raw : RawInsn} {i : Instr} (h : decodeRaw raw = .ok i) : i.wellFormed = true := by
  have key : wellFormedIfOk (decodeRaw raw) = true := by
    cases raw with
    | half b =>
      simp only [decodeRaw, decode16]
      split
      · exact decodeQ0_wellFormed b
      · exact decodeQ1_wellFormed b
      · exact decodeQ2_wellFormed b
      · rfl
    | word w =>
      simp only [decodeRaw]
      split
      · exact decode32_wellFormed w
      · rfl
  rwa [h] at key

end Sys2Proof
end

section
/-! Legal words: bits within a mask, the fields of `status`, and the CSR file, whose legality is the legality of each
storage register and MPP not being 2 (R40, R41). -/

namespace Sys2Proof.Machine

/-! ## Bits within a mask -/

theorem bitsWithin_iff {m w : Word} :
    bitsWithin m w = true ↔ ∀ j < 32, w.getLsbD j = true → m.getLsbD j = true := by
  have h : bitsWithin m w = true ↔ w &&& ~~~m = 0#32 := by simp [bitsWithin]
  rw [h]
  constructor
  · intro h0 j hj hw
    have := congrArg (BitVec.getLsbD · j) h0
    simpa [hj, hw] using this
  · intro hb
    apply BitVec.eq_of_getLsbD_eq
    intro j hj
    simpa [hj] using hb j hj

theorem bitsWithin_and_left {m a : Word} (h : bitsWithin m a = true) (b : Word) : bitsWithin m (a &&& b) = true := by
  rw [bitsWithin_iff] at *
  intro j hj hab
  rw [BitVec.getLsbD_and, Bool.and_eq_true] at hab
  exact h j hj hab.1

theorem bitsWithin_or {m a b : Word} (ha : bitsWithin m a = true) (hb : bitsWithin m b = true) :
    bitsWithin m (a ||| b) = true := by
  rw [bitsWithin_iff] at *
  intro j hj hab
  rw [BitVec.getLsbD_or, Bool.or_eq_true] at hab
  exact hab.elim (ha j hj) (hb j hj)

theorem bitsWithin_mask (m w : Word) : bitsWithin m (w &&& m) = true := by
  rw [bitsWithin_iff]
  intro j _ h
  rw [BitVec.getLsbD_and, Bool.and_eq_true] at h
  exact h.2

theorem bitsWithin_merge {m old mask : Word} (ho : bitsWithin m old = true) (hm : bitsWithin m mask = true) (v : Word) :
    bitsWithin m (Spec.merge mask old v) = true := by
  rw [bitsWithin_iff] at *
  intro j hj h
  rw [getLsbD_merge _ _ _ hj] at h
  cases hmj : mask.getLsbD j with
  | true => exact hm j hj hmj
  | false => rw [hmj] at h; exact ho j hj h

/-- A bit of the mask may be set or cleared. -/
theorem bitsWithin_setBit {m w : Word} {i : Nat} (hw : bitsWithin m w = true) (hi : m.getLsbD i = true) (b : Bool) :
    bitsWithin m (setBit w i b) = true := by
  rw [bitsWithin_iff] at *
  intro j hj h
  rw [getLsbD_setBit w i b j hj] at h
  by_cases hij : i = j
  · rwa [← hij]
  · rw [if_neg hij] at h; exact hw j hj h

theorem bitsWithin_allOnes (w : Word) : bitsWithin 0xFFFFFFFF#32 w = true := by
  rw [bitsWithin_iff]
  intro j hj _
  rw [show 0xFFFFFFFF#32 = BitVec.allOnes 32 from rfl, BitVec.getLsbD_allOnes]
  exact decide_eq_true hj

theorem isEven_eq_bitsWithin (w : Word) : isEven w = bitsWithin 0xFFFFFFFE#32 w := by
  rw [Bool.eq_iff_iff, bitsWithin_iff]
  constructor
  · intro h j hj hw
    have hj0 : j ≠ 0 := by rintro rfl; simp [isEven] at h; simp [h] at hw
    interval_cases j <;> simp_all
  · intro h
    simpa [isEven] using h 0 (by omega)

/-! ## The MPP field -/

theorem statusMPP_setBit {i : Nat} (h11 : i ≠ 11) (h12 : i ≠ 12) (w : Word) (b : Bool) :
    statusMPP (setBit w i b) = statusMPP w := by
  apply BitVec.eq_of_getLsbD_eq
  intro j hj
  have hij : i ≠ 11 + j := by omega
  simp only [statusMPP, BitVec.getLsbD_extractLsb', hj, getLsbD_setBit w i b (11 + j) (by omega), if_neg hij]

theorem statusMPP_setMPP (w : Word) (c : BitVec 2) : statusMPP (setMPP w c) = c := by
  apply BitVec.eq_of_getLsbD_eq
  intro j hj
  simp only [statusMPP, setMPP, BitVec.getLsbD_extractLsb', hj, decide_true, Bool.true_and]
  rw [getLsbD_setBit _ _ _ _ (by omega), getLsbD_setBit _ _ _ _ (by omega)]
  interval_cases j <;> simp

/-- A mask that holds both bits of MPP or none gives MPP as a whole the new value or the old one. -/
theorem statusMPP_merge {mask : Word} (h : mask.getLsbD 12 = mask.getLsbD 11) (old v : Word) :
    statusMPP (Spec.merge mask old v) = if mask.getLsbD 11 then statusMPP v else statusMPP old := by
  apply BitVec.eq_of_getLsbD_eq
  intro j hj
  have hm : mask.getLsbD (11 + j) = mask.getLsbD 11 := by interval_cases j <;> [rfl; exact h]
  simp only [statusMPP, BitVec.getLsbD_extractLsb', hj, decide_true, Bool.true_and,
    getLsbD_merge mask old v (j := 11 + j) (by omega), hm]
  split <;> simp [hj]

theorem Priv.code_ne_two (p : Priv) : p.code ≠ 2#2 := by cases p <;> decide

/-! ## `status` on trap entry and return -/

theorem trapStatus_within {w : Word} (h : bitsWithin statusMask w = true) (p q : Priv) :
    bitsWithin statusMask (trapStatus p q w) = true := by
  have hpp : bitsWithin statusMask (setPP w p q) = true := by
    cases p with
    | user => exact h
    | supervisor => exact bitsWithin_setBit h (by decide) _
    | machine => exact bitsWithin_setBit (bitsWithin_setBit h (by decide) _) (by decide) _
  exact bitsWithin_setBit (bitsWithin_setBit hpp (by cases p <;> decide) _) (by cases p <;> decide) _

theorem statusMPP_setPP (w : Word) (p q : Priv) :
    statusMPP (setPP w p q) = if p = .machine then q.code else statusMPP w := by
  cases p with
  | user => rfl
  | supervisor => exact statusMPP_setBit (by decide) (by decide) ..
  | machine => exact statusMPP_setMPP ..

theorem statusMPP_setIe (w : Word) (p : Priv) (b : Bool) : statusMPP (setBit w (ieBit p) b) = statusMPP w :=
  statusMPP_setBit (by cases p <;> decide) (by cases p <;> decide) w b

theorem statusMPP_setPie (w : Word) (p : Priv) (b : Bool) : statusMPP (setBit w (pieBit p) b) = statusMPP w :=
  statusMPP_setBit (by cases p <;> decide) (by cases p <;> decide) w b

theorem trapStatus_MPP (w : Word) (p q : Priv) :
    statusMPP (trapStatus p q w) = if p = .machine then q.code else statusMPP w := by
  rw [trapStatus, statusMPP_setIe, statusMPP_setPie, statusMPP_setPP]

theorem retStatus_MPP (w : Word) (x : Priv) :
    statusMPP (retStatus x w) = if x = .machine then 0#2 else statusMPP w := by
  rw [retStatus, statusMPP_setPP, statusMPP_setPie, statusMPP_setIe]
  rfl

theorem retStatus_within {w : Word} (h : bitsWithin statusMask w = true) (x : Priv) :
    bitsWithin statusMask (retStatus x w) = true := by
  have hie := bitsWithin_setBit (i := ieBit x) h (by cases x <;> decide) (statusPIE w x)
  have hpie := bitsWithin_setBit (i := pieBit x) hie (by cases x <;> decide) true
  cases x with
  | user => exact hpie
  | supervisor => exact bitsWithin_setBit hpie (by decide) _
  | machine => exact bitsWithin_setBit (bitsWithin_setBit hpie (by decide) _) (by decide) _

/-! ## The CSR file -/

/-- The bits a storage register may hold (R40, R44, R51, R55, R56, R59). -/
def storageMask : CsrStorage → Word
  | .status => statusMask
  | .ie | .ip => interruptMask
  | .epc _ => 0xFFFFFFFE#32
  | .medeleg => 0x0000B3FF#32
  | .sedeleg => 0x0000B1FF#32
  | .mideleg => 0x00000333#32
  | .sideleg => 0x00000111#32
  | .satp => 0x803FFFFF#32
  | _ => 0xFFFFFFFF#32

theorem legal_iff {c : CsrFile} :
    c.legal = true ↔ statusMPP c.status ≠ 2#2 ∧ ∀ st, bitsWithin (storageMask st) (readStorage c st) = true := by
  simp only [CsrFile.legal, statusLegal, isEven_eq_bitsWithin, Bool.and_eq_true, bne_iff_ne]
  constructor
  · rintro ⟨⟨⟨⟨⟨⟨⟨⟨⟨⟨⟨hstatus, hmpp⟩, hie⟩, hip⟩, huepc⟩, hsepc⟩, hmepc⟩, hmed⟩, hsed⟩, hmid⟩, hsid⟩, hsatp⟩
    refine ⟨hmpp, fun st => ?_⟩
    cases st with
    | status => exact hstatus
    | ie => exact hie
    | ip => exact hip
    | epc p => cases p <;> assumption
    | medeleg => exact hmed
    | sedeleg => exact hsed
    | mideleg => exact hmid
    | sideleg => exact hsid
    | satp => exact hsatp
    | _ => exact bitsWithin_allOnes _
  · rintro ⟨hmpp, h⟩
    exact ⟨⟨⟨⟨⟨⟨⟨⟨⟨⟨⟨h .status, hmpp⟩, h .ie⟩, h .ip⟩, h (.epc .user)⟩, h (.epc .supervisor)⟩, h (.epc .machine)⟩,
      h .medeleg⟩, h .sedeleg⟩, h .mideleg⟩, h .sideleg⟩, h .satp⟩

theorem writeStorage_legal {c : CsrFile} (h : c.legal = true) (st : CsrStorage) {v : Word}
    (hv : bitsWithin (storageMask st) v = true) (hmpp : st = .status → statusMPP v ≠ 2#2) :
    (writeStorage c st v).legal = true := by
  rw [legal_iff] at h ⊢
  obtain ⟨hm, hw⟩ := h
  have hread : ∀ st', readStorage (writeStorage c st v) st' = readStorage c st' ∨
      st' = st ∧ readStorage (writeStorage c st v) st' = v := by
    intro st'
    by_cases he : st' = st
    · subst he
      cases hc : st'.isConstant with
      | false => exact .inr ⟨rfl, readStorage_writeStorage_same hc c v⟩
      | true => left; cases st' <;> simp_all [CsrStorage.isConstant]
    · exact .inl (readStorage_writeStorage_other he c v)
  constructor
  · rcases hread .status with hs | ⟨he, hs⟩
    · rwa [show (writeStorage c st v).status = c.status from hs]
    · rw [show (writeStorage c st v).status = v from hs]; exact hmpp he.symm
  · intro st'
    rcases hread st' with hs | ⟨rfl, hs⟩
    · rw [hs]; exact hw st'
    · rw [hs]; exact hv

theorem csrTable_wmask_within {row : CsrRow} (h : row ∈ csrTable) :
    bitsWithin (storageMask row.storage) row.wmask = true := by
  have key : ∀ r ∈ csrTable, bitsWithin (storageMask r.storage) r.wmask = true := by decide
  exact key row h

/-- The views of `status` hold MPP whole or not at all. -/
theorem csrTable_status_mpp {row : CsrRow} (h : row ∈ csrTable) (hs : row.storage = .status) :
    row.wmask.getLsbD 12 = row.wmask.getLsbD 11 := by
  have key : ∀ r ∈ csrTable, r.storage = .status → r.wmask.getLsbD 12 = r.wmask.getLsbD 11 := by decide
  exact key row h hs

/-- No access leaves 2 in MPP (R41). -/
theorem csrStored_mpp {row : CsrRow} (op : CsrOp) (src : Word) {s : State} (hrow : row ∈ csrTable)
    (hs : row.storage = .status) (h : statusMPP s.csr.status ≠ 2#2) : statusMPP (csrStored row op src s) ≠ 2#2 := by
  have hold : readStorage s.csr row.storage = s.csr.status := by rw [hs]; rfl
  simp only [csrStored, hold]
  by_cases hnew : statusMPP (csrNewValue op (csrValue row s) src) = 2#2
  · rw [csrWriteMask, if_pos ⟨hs, hnew⟩, statusMPP_merge (by simp)]
    simpa using h
  · rw [csrWriteMask, if_neg (fun hn => hnew hn.2), statusMPP_merge (csrTable_status_mpp hrow hs)]
    split
    · exact hnew
    · exact h

theorem csrStored_within {row : CsrRow} (op : CsrOp) (src : Word) {s : State} (hrow : row ∈ csrTable)
    (h : s.csr.legal = true) : bitsWithin (storageMask row.storage) (csrStored row op src s) = true := by
  refine bitsWithin_merge ((legal_iff.mp h).2 _) ?_ _
  unfold csrWriteMask
  split
  · exact bitsWithin_and_left (csrTable_wmask_within hrow) _
  · exact csrTable_wmask_within hrow

theorem csrAccess_legal {row : CsrRow} (op : CsrOp) (src : Word) {s : State} (hrow : row ∈ csrTable)
    (h : s.csr.legal = true) : (csrAccess row op src s).csr.legal = true := by
  by_cases hop : op = .read
  · rwa [hop, csrAccess_read]
  · rw [csrAccess_csr hop]
    exact writeStorage_legal h _ (csrStored_within op src hrow h)
      fun hs => csrStored_mpp op src hrow hs (legal_iff.mp h).1

theorem takeTrap_legal {s : State} (h : s.csr.legal = true) (p : Priv) (c tv ev : Word) :
    (takeTrap p c tv ev s).csr.legal = true := by
  obtain ⟨hmpp, hw⟩ := legal_iff.mp h
  have hepc := writeStorage_legal h (.epc p) (v := ev &&& 0xFFFFFFFE#32) (bitsWithin_mask _ _) nofun
  have hcause := writeStorage_legal hepc (.cause p) (v := c) (bitsWithin_allOnes _) nofun
  have htval := writeStorage_legal hcause (.tval p) (v := tv) (bitsWithin_allOnes _) nofun
  have hstatus := writeStorage_legal htval .status (trapStatus_within (hw .status) p s.priv) fun _ => by
    rw [trapStatus_MPP]
    split
    · exact Priv.code_ne_two _
    · exact hmpp
  rw [takeTrap_csr]
  exact hstatus

theorem trapReturn_legal {s : State} (h : s.csr.legal = true) (x : Priv) : (trapReturn x s).csr.legal = true := by
  obtain ⟨hmpp, hw⟩ := legal_iff.mp h
  rw [trapReturn_csr]
  refine writeStorage_legal h .status (retStatus_within (hw .status) x) fun _ => ?_
  rw [retStatus_MPP]
  split
  · decide
  · exact hmpp

theorem eventFold_legal {s : State} (h : s.csr.legal = true) (hp : bitsWithin interruptMask s.evIntMask = true) :
    (eventFold s).csr.legal = true := by
  have hip := bitsWithin_or ((legal_iff.mp h).2 .ip) hp
  rw [eventFold_csr]
  refine writeStorage_legal h .ip ?_ nofun
  split
  · exact hip
  · exact bitsWithin_setBit hip (by decide) _

end Sys2Proof.Machine
end

section
/-! The invariant of the machine: what holds inside an instruction, that every memory event and every effect keeps it, and
that the end of a step restores the rest. -/

namespace Sys2Proof.Machine

/-! ## The invariant inside an instruction -/

/-- Only interrupt numbers are posted, and none while `ev_int` is 0: the part of `eventsLegal` that holds inside an
instruction too. -/
def postsLegal (s : State) : Bool := bitsWithin interruptMask s.evIntMask && (s.evInt || s.evIntMask == 0#32)

/-- What holds at every memory event: the invariant but for `wait_event`, which an event posted inside an instruction
breaks until `rearm` (R470). -/
structure Sound (s : State) : Prop where
  machine : machineLegal s = true
  pcEven : isEven s.pc = true
  csrs : s.csr.legal = true
  memory : memLegal s.cfg s.mem = true
  tlb : tlbLegal s.cfg s.tlb = true
  reservation : reservationLegal s.cfg s.rsv = true
  posts : postsLegal s = true
  evTrap : s.evTrap = false

theorem inv_iff (s : State) : Inv s ↔ Sound s ∧ (s.waitEvent = true → s.evInt = false) := by
  have hwake : (!s.waitEvent || !s.evInt) = true ↔ (s.waitEvent = true → s.evInt = false) := by
    cases s.waitEvent <;> simp
  constructor
  · rintro ⟨hmach, hpc, hcsr, hmem, htlb, hrsv, hev, htrap⟩
    simp only [eventsLegal, Bool.and_eq_true] at hev
    exact ⟨⟨hmach, hpc, hcsr, hmem, htlb, hrsv, by simp [postsLegal, hev], htrap⟩, hwake.mp hev.2⟩
  · rintro ⟨⟨hmach, hpc, hcsr, hmem, htlb, hrsv, hposts, htrap⟩, hwait⟩
    simp only [postsLegal, Bool.and_eq_true] at hposts
    exact ⟨hmach, hpc, hcsr, hmem, htlb, hrsv, by simp only [eventsLegal, hposts, hwake.mpr hwait, Bool.and_self], htrap⟩

/-- Where the hart's own state stays the same, only the parts that are shared or translated are left to check. -/
theorem Sound.of_core {s t : State} (h : Sound s) (hc : SameCore s t) (hmem : memLegal s.cfg t.mem = true)
    (htlb : tlbLegal s.cfg t.tlb = true) (hrsv : reservationLegal s.cfg t.rsv = true) (hposts : postsLegal t = true) :
    Sound t where
  machine := by rw [machineLegal, hc.cfg, hc.csr]; exact h.machine
  pcEven := by rw [hc.pc]; exact h.pcEven
  csrs := by rw [hc.csr]; exact h.csrs
  memory := by rw [hc.cfg]; exact hmem
  tlb := by rw [hc.cfg]; exact htlb
  reservation := by rw [hc.cfg]; exact hrsv
  posts := hposts
  evTrap := by rw [hc.evTrap]; exact h.evTrap

/-! ## Memory -/

theorem memLegal_iff {p : Config.Params} {m : Memory} : memLegal p m = true ↔
    m.wf = true ∧ m.all (fun c => decide (p.ramBase ≤ c.1) && decide (c.1 < p.ramBase + p.ramSize)) = true := by
  rw [memLegal, Bool.and_eq_true]

theorem memLegal_writeByte {p : Config.Params} {m : Memory} {a : Nat} (h : memLegal p m = true)
    (ha : p.ramBase ≤ a ∧ a < p.ramBase + p.ramSize) (v : Byte) : memLegal p (writeByte a v m) = true := by
  rw [memLegal_iff] at *
  exact ⟨writeByte_wf h.1, all_writeByte h.2 (by simpa using ha)⟩

theorem memLegal_writeBytes {p : Config.Params} {m : Memory} {pa : PhysAddr} {n : Nat} (h : memLegal p m = true)
    (hr : inRam p pa n = true) (v : Word) : memLegal p (writeBytes pa.toNat v m n) = true := by
  rw [memLegal_iff] at *
  simp only [inRam, Bool.and_eq_true, decide_eq_true_eq] at hr
  obtain ⟨⟨-, hlo⟩, hhi⟩ := hr
  refine ⟨writeBytes_wf n _ v h.1, all_writeBytes n _ v h.2 fun b x hb hb' => ?_⟩
  simp only [Bool.and_eq_true, decide_eq_true_eq]
  omega

theorem memLegal_deviceBytes {p : Config.Params} (bytes : List Byte) (a : Nat) {m : Memory} (h : memLegal p m = true) :
    memLegal p (deviceBytes p a m bytes) = true := by
  induction bytes generalizing a m with
  | nil => exact h
  | cons b rest ih =>
    rw [deviceBytes]
    split
    next ha => exact ih _ (memLegal_writeByte h ⟨ha.1, ha.2.1⟩ b)
    next => exact ih _ h

/-! ## The reservation and posts -/

theorem reservationLegal_check {p : Config.Params} {r : Option PhysAddr} (h : reservationLegal p r = true)
    (pa : PhysAddr) (n : Nat) : reservationLegal p (if reservationHit r pa n then none else r) = true := by
  split
  · rfl
  · exact h

theorem post_posts {s : State} (h : postsLegal s = true) (bits : Word) : postsLegal (post bits s) = true := by
  simp only [postsLegal, Bool.and_eq_true] at h
  simpa [postsLegal] using bitsWithin_or h.1 (bitsWithin_mask _ bits)

theorem selfSignal_posts {s : State} (h : postsLegal s = true) : postsLegal (selfSignal s) = true := by
  simp only [postsLegal, Bool.and_eq_true] at h
  simp [postsLegal, h.1]

/-! ## Other agents -/

theorem deviceAct_core (s : State) (a : Config.DeviceAction) : SameCore s (deviceAct s a) := by constructor <;> simp

theorem agentAct_core (s : State) (a : AgentAction) : SameCore s (agentAct s a) := by constructor <;> simp

theorem deviceAct_sound {s : State} (h : Sound s) (a : Config.DeviceAction) : Sound (deviceAct s a) := by
  have hc := deviceAct_core s a
  cases a with
  | post bits => exact h.of_core hc h.memory h.tlb h.reservation (post_posts h.posts bits)
  | setTimecmp v =>
    have hp : postsLegal { s with timecmp := v } = true := h.posts
    exact h.of_core hc h.memory h.tlb h.reservation (selfSignal_posts hp)
  | ramWrite a bytes => exact h.of_core hc (memLegal_deviceBytes bytes a h.memory) h.tlb h.reservation h.posts

theorem otherHartStore_sound {s : State} (h : Sound s) (g : Nat) (pa : PhysAddr) (w : Width) (v : Word) :
    Sound (otherHartStore g pa w v s) := by
  have hc : SameCore s (otherHartStore g pa w v s) := by constructor <;> simp
  unfold otherHartStore at hc ⊢
  split at hc
  next hr =>
    rw [Bool.and_eq_true] at hr
    have hmem := memLegal_writeBytes h.memory hr.2 v
    rw [if_pos (by simp [hr])]
    split at hc
    next hsn =>
      rw [if_pos hsn]
      exact h.of_core hc (by simpa using hmem) (by simpa using h.tlb)
        (by simpa using reservationLegal_check h.reservation pa _) (by simpa [postsLegal] using h.posts)
    next hsn =>
      rw [if_neg hsn]
      exact h.of_core hc hmem h.tlb h.reservation h.posts
  next hr => rwa [if_neg hr]

theorem agentAct_sound {s : State} (h : Sound s) (a : AgentAction) : Sound (agentAct s a) := by
  have hc := agentAct_core s a
  cases a with
  | device a => exact deviceAct_sound h a
  | deviceState n => exact h.of_core hc h.memory h.tlb h.reservation h.posts
  | timer =>
    rw [agentAct]
    split
    · exact deviceAct_sound h (.post 0x80#32)
    · exact h
  | timeTo t =>
    rw [agentAct]
    split
    · exact h.of_core (by constructor <;> rfl) h.memory h.tlb h.reservation h.posts
    · exact h
  | otherHartStore g pa w v => exact otherHartStore_sound h g pa w v

theorem interleave_sound {s : State} (h : Sound s) : Sound (interleave s) :=
  interleave_induction (fun _ => h.of_core (by constructor <;> rfl) h.memory h.tlb h.reservation h.posts)
    fun _ a ht => agentAct_sound ht a

theorem mmioCall_sound {s : State} (h : Sound s) (acc : Config.MmioAccess) : Sound (mmioCall acc s) :=
  List.foldlRecOn (mmioAnswer acc s).actions deviceAct (motive := Sound)
    (h.of_core (by constructor <;> rfl) h.memory h.tlb h.reservation h.posts) fun _ ht a _ => deviceAct_sound ht a

/-! ## The TLB -/

theorem tlbLegal_nil (p : Config.Params) : tlbLegal p [] = true := rfl

theorem pageBase_toNat {pa : PhysAddr} (h : pa.toNat < 2 ^ 32) :
    (0#2 ++ pa.extractLsb' 12 20 ++ 0#12 : PhysAddr).toNat = pa.toNat / 4096 * 4096 := by
  have hz : ∀ x : Nat, x <<< 12 ||| 0 = x * 4096 := fun x => by rw [Nat.or_zero, Nat.shiftLeft_eq]
  simp only [BitVec.toNat_append, BitVec.extractLsb'_toNat, BitVec.toNat_ofNat, Nat.shiftRight_eq_div_pow]
  simp only [Nat.zero_mod, Nat.zero_shiftLeft, Nat.zero_or, hz]
  omega

theorem tlbFill_sound {s : State} (h : Sound s) (va : Word) (ty : AccessType) (pa : PhysAddr) :
    Sound (tlbFill va ty pa s) := by
  have hc := (tlbFill_private va ty pa s).core
  unfold tlbFill at hc ⊢
  split
  next hp =>
    rw [if_pos hp] at hc
    refine h.of_core hc h.memory ?_ h.reservation h.posts
    have ht := h.tlb
    rw [tlbLegal, Bool.and_eq_true] at ht ⊢
    refine ⟨sparseSortedFrom_set (Nat.zero_le _) _ ht.1, all_sparseSet ht.2 ?_⟩
    simp only [isRamPage, Bool.and_eq_true, decide_eq_true_eq] at hp
    obtain ⟨⟨hlt, hlo⟩, hhi⟩ := hp
    simp only [tlbEntryLegal, beq_self_eq_true, Bool.true_and, isRamPage, pageBase_toNat hlt, Bool.and_eq_true,
      decide_eq_true_eq]
    omega
  next => exact h

/-! ## Everything an instruction does before it commits -/

theorem ramWrite_sound {s : State} {pa : PhysAddr} {n : Nat} (h : Sound s) (hr : inRam s.cfg pa n = true) (v : Word) :
    Sound (ramWrite pa n v s) :=
  h.of_core (ramWrite_core ..) (by simpa using memLegal_writeBytes h.memory hr v) (by simpa using h.tlb)
    (by simpa using reservationLegal_check h.reservation pa n) (by simpa [postsLegal] using h.posts)

theorem Reaches.sound {s t : State} (hr : Reaches s t) (h : Sound s) : Sound t := by
  induction hr with
  | refl => exact h
  | interleave _ ih => exact interleave_sound ih
  | orAD ty _ hram ih =>
    exact ih.of_core (by constructor <;> rfl) (memLegal_writeBytes ih.memory hram _) ih.tlb ih.reservation ih.posts
  | tlbFill va ty pa _ ih => exact tlbFill_sound ih va ty pa
  | flushTlb _ ih => exact ih.of_core (by constructor <;> rfl) ih.memory (tlbLegal_nil _) ih.reservation ih.posts
  | mmioCall acc _ ih => exact mmioCall_sound ih acc
  | ramWrite v _ hram ih => exact ramWrite_sound ih hram v
  | unreserve _ ih => exact ih.of_core (by constructor <;> rfl) ih.memory ih.tlb rfl ih.posts

/-! ## Commit, trap, CSR access, return, wait -/

theorem setPc_writeReg_sound {s : State} (h : Sound s) {next : Word} (hn : isEven next = true) (rd : Reg) (v : Word) :
    Sound (setPc next (writeReg rd v s)) where
  machine := by simpa [machineLegal] using h.machine
  pcEven := hn
  csrs := by simpa using h.csrs
  memory := by simpa using h.memory
  tlb := by simpa using h.tlb
  reservation := by simpa using h.reservation
  posts := by simpa [postsLegal] using h.posts
  evTrap := by simpa using h.evTrap

theorem advance_writeReg_sound {s : State} (h : Sound s) {len : Word} (hlen : isEven len = true) (rd : Reg) (v : Word) :
    Sound (advance len (writeReg rd v s)) :=
  advance_writeReg .. ▸ setPc_writeReg_sound h (isEven_add h.pcEven hlen) rd v

theorem isEven_takeTrap_pc (p : Priv) (c tv ev : Word) (s : State) : isEven (takeTrap p c tv ev s).pc = true := by
  have hbase : isEven (s.csr.tvec.get p &&& 0xFFFFFFFC#32) = true := by simp [isEven]
  rw [takeTrap_pc]
  split
  · exact isEven_add hbase (by simp [isEven])
  · exact hbase

theorem takeTrap_sound {s : State} (h : Sound s) (p : Priv) (c tv ev : Word) : Sound (takeTrap p c tv ev s) where
  machine := by simpa [machineLegal] using h.machine
  pcEven := isEven_takeTrap_pc ..
  csrs := takeTrap_legal h.csrs ..
  memory := by simpa using h.memory
  tlb := by
    rw [takeTrap_cfg, takeTrap_tlb]
    split
    · exact h.tlb
    · rfl
  reservation := by rw [takeTrap_rsv]; rfl
  posts := by simpa [postsLegal] using h.posts
  evTrap := by simp

/-- A trap return leaves an even pc, since epc is even (R51). -/
theorem trapReturn_sound {s : State} (h : Sound s) (x : Priv) : Sound (trapReturn x s) where
  machine := by simpa [machineLegal] using h.machine
  pcEven := by
    rw [trapReturn_pc, isEven_eq_bitsWithin]
    exact (legal_iff.mp h.csrs).2 (.epc x)
  csrs := trapReturn_legal h.csrs x
  memory := by simpa using h.memory
  tlb := by
    rw [trapReturn_cfg, trapReturn_tlb]
    split
    · exact h.tlb
    · rfl
  reservation := by simpa using h.reservation
  posts := by
    have hp := h.posts
    simp only [postsLegal, Bool.and_eq_true] at hp
    simp [postsLegal, hp.1]
  evTrap := by simpa using h.evTrap

/-- An access leaves the TLB or flushes it. -/
theorem csrAccess_tlb_cases (row : CsrRow) (op : CsrOp) (src : Word) (s : State) :
    (csrAccess row op src s).tlb = s.tlb ∨ (csrAccess row op src s).tlb = [] := by
  unfold csrAccess
  split
  · exact .inl rfl
  · cases row.effect with
    | none | signal => exact .inl rfl
    | flush => exact .inr rfl
    | contextAndSignal =>
      simp only [csrEffect, selfSignal_tlb, contextFlush_tlb]
      split
      · exact .inl rfl
      · exact .inr rfl

/-- An access leaves `ev_int` or sets it. -/
theorem csrAccess_evInt_cases (row : CsrRow) (op : CsrOp) (src : Word) (s : State) :
    (csrAccess row op src s).evInt = s.evInt ∨ (csrAccess row op src s).evInt = true := by
  unfold csrAccess
  split
  · exact .inl rfl
  · cases row.effect with
    | none | flush => exact .inl rfl
    | signal | contextAndSignal => exact .inr rfl

theorem csrAccess_sound {s : State} {row : CsrRow} (h : Sound s) (hrow : row ∈ csrTable) (op : CsrOp) (src : Word) :
    Sound (csrAccess row op src s) where
  machine := by rw [machineLegal, csrAccess_cfg, csrAccess_hartid hrow]; exact h.machine
  pcEven := by simpa using h.pcEven
  csrs := csrAccess_legal op src hrow h.csrs
  memory := by simpa using h.memory
  tlb := by
    rw [csrAccess_cfg]
    rcases csrAccess_tlb_cases row op src s with ht | ht
    · rw [ht]; exact h.tlb
    · rw [ht]; rfl
  reservation := by simpa using h.reservation
  posts := by
    have hp := h.posts
    simp only [postsLegal, Bool.and_eq_true] at hp ⊢
    rcases csrAccess_evInt_cases row op src s with he | he
    · rw [csrAccess_evIntMask, he]; exact hp
    · rw [csrAccess_evIntMask, he]; exact ⟨hp.1, rfl⟩
  evTrap := by simpa using h.evTrap

theorem eventFold_sound {s : State} (h : Sound s) : Sound (eventFold s) := by
  have hp := h.posts
  simp only [postsLegal, Bool.and_eq_true] at hp
  exact ⟨h.machine, h.pcEven, eventFold_legal h.csrs hp.1, h.memory, h.tlb, h.reservation, by simp [postsLegal, bitsWithin],
    h.evTrap⟩

theorem ExecEffect.sound {i : Instr} {s t : State} (he : ExecEffect i s t) (hw : i.wellFormed = true) (h : Sound s) :
    Sound t := by
  cases he with
  | commit rd v next hr hnext => exact setPc_writeReg_sound (hr.sound h) (hnext hw h.pcEven) rd v
  | @reserve s1 aq rl rd rs1 pa v _ hr hal hram =>
    have h1 := hr.sound h
    have hrsv : reservationLegal s1.cfg (some pa) = true := by simp [reservationLegal, hal, hram]
    have h2 : Sound { s1 with rsv := some pa } := h1.of_core (by constructor <;> rfl) h1.memory h1.tlb hrsv h1.posts
    exact advance_writeReg_sound h2 rfl rd v
  | trap e tv _ hr => exact takeTrap_sound (hr.sound h) ..
  | @csr a op row src rd _ hrow =>
    exact advance_writeReg_sound (csrAccess_sound h (mem_csrTable_of_csrCheck hrow) op src) rfl rd _
  | trapReturn => exact trapReturn_sound h _
  | interrupt => exact takeTrap_sound (eventFold_sound h) ..
  | park _ =>
    have hf := eventFold_sound h
    exact ⟨hf.machine, hf.pcEven, hf.csrs, hf.memory, hf.tlb, hf.reservation, hf.posts, hf.evTrap⟩

/-! ## One step -/

/-- An action of another agent posts an event only together with the wake. -/
theorem agentAct_wake {s : State} (h : s.waitEvent = true → s.evInt = false) (a : AgentAction) :
    (agentAct s a).waitEvent = true → (agentAct s a).evInt = false := by
  cases a with
  | device a =>
    cases a with
    | post bits => exact nofun
    | setTimecmp v => exact nofun
    | ramWrite a bytes => exact h
  | deviceState n => exact h
  | timer =>
    rw [agentAct]
    split
    · exact nofun
    · exact h
  | timeTo t => rw [agentAct]; split <;> exact h
  | otherHartStore g pa w v =>
    simp only [agentAct, otherHartStore]
    split
    · split <;> simpa using h
    · exact h

theorem agentAct_inv {s : State} (h : Inv s) (a : AgentAction) : Inv (agentAct s a) := by
  rw [inv_iff] at *
  exact ⟨agentAct_sound h.1 a, agentAct_wake h.2 a⟩

theorem wake_sound {s : State} (h : Sound s) : Sound (wake s) := by
  have hw : Sound { s with waitEvent := true } :=
    h.of_core (by constructor <;> rfl) h.memory h.tlb h.reservation h.posts
  unfold wake
  split
  · exact eventFold_sound hw
  · exact hw

theorem readyToFetch_sound {s : State} (h : Sound s) : Sound (readyToFetch s) := by
  obtain ⟨hmach, hpc, hcsr, hmem, htlb, hrsv, hposts, htrap⟩ := wake_sound h
  exact ⟨hmach, hpc, hcsr, hmem, htlb, hrsv, hposts, htrap⟩

/-- The end of a pass restores the part of the invariant that an event inside the instruction broke (R470). -/
theorem rearm_inv {s : State} (h : Sound s) : Inv (rearm s) := by
  unfold rearm
  rw [inv_iff]
  split
  · exact ⟨h.of_core (by constructor <;> rfl) h.memory h.tlb h.reservation h.posts, nofun⟩
  next he => exact ⟨h, fun _ => by simpa using he⟩

/-- An interrupt is taken at the event check only, which has folded the posted events. -/
theorem wake_evInt_of_boundaryInterrupt {s : State} {n : Nat} (h : boundaryInterrupt s = some n) :
    (wake s).evInt = false := by
  unfold boundaryInterrupt at h
  split at h
  next hc => simp [wake, hc]
  next => cases h

theorem StepEffect.inv {s t : State} (he : StepEffect s t) (h : Inv s) : Inv t := by
  have hs := ((inv_iff s).mp h).1
  cases he with
  | agent a => exact agentAct_inv h a
  | parked => exact h
  | interrupt hn =>
    rw [inv_iff]
    exact ⟨takeTrap_sound (wake_sound hs) .., fun _ => by
      simpa [takeInterrupt] using wake_evInt_of_boundaryInterrupt hn⟩
  | fetchTrap e tv hr => exact rearm_inv (takeTrap_sound (hr.sound (readyToFetch_sound hs)) ..)
  | run hf hd hx =>
    have hr := reaches_of_ok (fetchInstruction_reaches _) hf
    exact rearm_inv ((exec_effect hx).sound (decodeRaw_wellFormed hd) (hr.sound (readyToFetch_sound hs)))

/-- Whose turn comes next is no part of the invariant. -/
theorem inv_agenda {s : State} (h : Inv s) (l : List Turn) : Inv { s with agenda := l } :=
  ⟨h.machine, h.pcEven, h.csrs, h.memory, h.tlb, h.reservation, h.events, h.evTrap⟩

/-- Settles O4: the parts of a step keep the invariant inside an instruction, and its end restores the whole. -/
theorem stepKeepsInvariant : Obligations.StepKeepsInvariant := by
  intro s t h hst
  obtain ⟨l, he⟩ := step_effect hst
  exact he.inv (inv_agenda h l)

/-! ## Reset -/

/-- Settles O1: x11 holds DTB_ADDR and every other register 0; the rest is what reset writes. -/
theorem resetState : Obligations.ResetState := by
  intro p h m
  have hregs : ∀ r, readReg (State.resetWith p h m) r = if r = 11#5 then p.dtbAddr else 0#32 := by
    intro r
    have h11 : (11 : Nat) = r.toNat ↔ r = 11#5 := by
      rw [BitVec.toNat_eq]; exact eq_comm
    by_cases hr : r = 0#5
    · simp [hr]
    · simp [readReg, State.resetWith, hr, Vector.getElem_set, h11]
  refine ⟨hregs, rfl, rfl, rfl, rfl, rfl, ?_, rfl, rfl, rfl, rfl, rfl, rfl, rfl, rfl, rfl, rfl, rfl, fun _ => rfl, rfl, rfl,
    rfl, rfl, rfl, rfl, rfl, rfl, fun _ => rfl⟩
  intro q
  cases q <;> exact ⟨rfl, rfl, rfl, rfl, rfl⟩

/-- Settles O2: each part of the invariant evaluates on the reset state. -/
theorem resetInvariant : Obligations.ResetInvariant where
  machine := by decide
  pcEven := by decide
  csrs := by decide
  memory := rfl
  tlb := rfl
  reservation := rfl
  events := by decide
  evTrap := rfl

end Sys2Proof.Machine
end

section
/-! Trap entry in the words of the specification, and how the mode changes: up by a trap entry, down by a trap return
(R450, R451, R403, R485). -/

namespace Sys2Proof.Machine

/-! ## Trap entry (R450, R452) -/

theorem getLsbD_setPP {p : Priv} {j : Nat} (hj : j < 32) (hm : p = .machine → j ≠ 11 ∧ j ≠ 12)
    (hs : p = .supervisor → j ≠ 8) (w : Word) (q : Priv) : (setPP w p q).getLsbD j = w.getLsbD j := by
  cases p with
  | user => rfl
  | supervisor => rw [setPP, getLsbD_setBit _ _ _ _ hj, if_neg (hs rfl).symm]
  | machine =>
    obtain ⟨h11, h12⟩ := hm rfl
    rw [setPP, setMPP, getLsbD_setBit _ _ _ _ hj, getLsbD_setBit _ _ _ _ hj, if_neg h12.symm, if_neg h11.symm]

theorem ieBit_lt (p : Priv) : ieBit p < 32 := by cases p <;> decide
theorem pieBit_lt (p : Priv) : pieBit p < 32 := by cases p <;> decide
theorem ieBit_ne_pieBit (p : Priv) : ieBit p ≠ pieBit p := by cases p <;> decide

/-- Four times the interrupt number, modulo 2^32 (R452). -/
theorem shiftLeft_two_eq (c : Word) : c <<< 2 = BitVec.ofNat 32 (4 * (c.toNat % 2 ^ 31)) := by
  apply BitVec.eq_of_toNat_eq
  rw [BitVec.toNat_shiftLeft, BitVec.toNat_ofNat, Nat.shiftLeft_eq]
  omega

theorem takeTrap_trapEntry (p : Priv) (c tv ev : Word) (s : State) :
    Spec.TrapEntry p c tv ev s (takeTrap p c tv ev s) where
  epc q := by simp [Banked.get_set]
  cause q := by simp [Banked.get_set]
  tval q := by simp [Banked.get_set]
  xie := by simp [statusIE, trapStatus, getLsbD_setBit _ _ _ _ (ieBit_lt p)]
  xpie := by
    simp [statusPIE, trapStatus, getLsbD_setBit _ _ _ _ (pieBit_lt p), ieBit_ne_pieBit p]
  mpp hp := by simp [trapStatus_MPP, hp]
  spp hp := by
    subst hp
    simp only [takeTrap_csr, statusSPP, trapStatus, setPP]
    rw [getLsbD_setBit _ _ _ _ (by decide), getLsbD_setBit _ _ _ _ (by decide), getLsbD_setBit _ _ _ _ (by decide)]
    rfl
  otherBits j hj hie hpie hm hs := by
    simp only [takeTrap_csr, trapStatus]
    rw [getLsbD_setBit _ _ _ _ hj, if_neg hie.symm, getLsbD_setBit _ _ _ _ hj, if_neg hpie.symm, getLsbD_setPP hj hm hs]
  otherCsrs := by simp
  priv := by simp
  rsv := by simp
  evTrap := by simp
  tlb := takeTrap_tlb ..
  pc := by
    rw [takeTrap_pc, shiftLeft_two_eq]
    simp only [Bool.and_eq_true]
    split
    · rfl
    · exact (BitVec.add_zero _).symm
  regs r := by simp
  bytes a := by simp
  rest := by simp

/-- The delegation rule of R451 in the words of its consequences. -/
theorem exceptionTarget_eq_exceptionLevel (c : Nat) (s : State) : exceptionTarget c s = Spec.exceptionLevel c s := by
  cases h : s.priv <;> simp [exceptionTarget, Spec.exceptionLevel, h, Priv.above, Priv.code]

/-- A trap depends on the mode and the CSRs, which no memory event changes. -/
theorem exceptionLevel_congr {s t : State} (h : SameCore s t) (c : Nat) :
    Spec.exceptionLevel c t = Spec.exceptionLevel c s := by
  rw [Spec.exceptionLevel, Spec.exceptionLevel, h.priv, h.csr]

/-- An exception raised after some memory events is the instruction's own trap (R12, R470). -/
theorem raiseException_traps {s s1 : State} (h : SameCore s s1) (e : Exception) (tv : Word) :
    Spec.Traps (.next (raiseException e tv s1)) e.code tv s s1 := by
  refine ⟨_, rfl, ?_⟩
  rw [raiseException, exceptionTarget_eq_exceptionLevel, exceptionLevel_congr h, h.pc]
  exact takeTrap_trapEntry ..

/-! ## The order of the modes -/

theorem Priv.code_toNat_injective {p q : Priv} (h : p.code.toNat = q.code.toNat) : p = q := by
  revert h; cases p <;> cases q <;> decide

theorem Priv.above_eq_false_iff {p q : Priv} : p.above q = false ↔ p.code.toNat ≤ q.code.toNat := by
  simp [Priv.above, BitVec.ult]

/-- No exception goes below the current privilege (R451). -/
theorem exceptionTarget_ge (c : Nat) (s : State) : s.priv.code.toNat ≤ (exceptionTarget c s).code.toNat := by
  rw [exceptionTarget_eq_exceptionLevel, Spec.exceptionLevel]
  cases s.priv with
  | user => exact Nat.zero_le _
  | supervisor => dsimp only; split <;> decide
  | machine => exact Nat.le_refl _

/-- An interrupt fires for a level at or above the current one only (R465). -/
theorem interruptTarget_ge {n : Nat} {wfi : Bool} {s : State} (h : interruptScan wfi s = some n) :
    s.priv.code.toNat ≤ (interruptTarget n s).code.toNat := by
  have hf : fires n wfi s = true := List.find?_some (p := fun i => fires i wfi s) h
  simp only [fires, Bool.and_eq_true, Bool.or_eq_true, decide_eq_true_eq] at hf
  rcases hf.2 with ha | ⟨he, -⟩
  · exact Nat.le_of_lt (by simpa [Priv.above, BitVec.ult] using ha)
  · rw [he]

/-- The previous privilege a return goes to is not above the level it returns from (R403). -/
theorem statusPP_le (w : Word) (x : Priv) : (statusPP w x).code.toNat ≤ x.code.toNat := by
  cases x with
  | user => exact Nat.le_refl _
  | supervisor => rw [statusPP]; split <;> decide
  | machine => rw [statusPP]; cases privOfCode (statusMPP w) <;> decide

theorem trapReturn_priv_le {x : Priv} {s : State} (h : x.above s.priv = false) :
    (trapReturn x s).priv.code.toNat ≤ s.priv.code.toNat := by
  rw [trapReturn_priv]
  exact (statusPP_le _ x).trans (Priv.above_eq_false_iff.mp h)

/-- The bit of `cause` that tells interrupts apart (R440). -/
theorem exception_cause_bit (e : Exception) : (BitVec.ofNat 32 e.code).getLsbD 31 = false := by cases e <;> decide

theorem interrupt_cause_bit (n : Nat) : (0x80000000#32 ||| BitVec.ofNat 32 n).getLsbD 31 = true := by
  rw [BitVec.getLsbD_or]; simp

theorem eventFold_eq_folded (s : State) : eventFold s = Spec.folded s := by
  have hbit : ∀ w : Word, setBit w 7 false = w &&& ~~~0x80#32 := fun w => rfl
  simp only [eventFold, Spec.folded, timerPending, BitVec.ule, decide_eq_true_eq, hbit]

/-! ## How an instruction changes the mode -/

/-- Only a trap entry raises the mode: an exception at the instruction itself or, for WFI, an interrupt after the fold. -/
theorem ExecEffect.raises {i : Instr} {s t : State} (h : ExecEffect i s t) (hlt : s.priv.code.toNat < t.priv.code.toNat) :
    ∃ cause tval ev s1, Spec.TrapEntry t.priv cause tval ev s1 t ∧ s1.priv = s.priv ∧ s1.pc = s.pc ∧
      (i ≠ .wfi → s1.csr = s.csr ∧ ev = s.pc ∧ cause.getLsbD 31 = false) ∧
      (i = .wfi → s1 = Spec.folded s ∧ ev = s.pc + 4#32 ∧ cause.getLsbD 31 = true) := by
  cases h with
  | commit rd v next hr _ => simp [hr.core.priv] at hlt
  | reserve v _ hr _ _ => simp [hr.core.priv] at hlt
  | @trap s1 e tv hw hr =>
    rw [raiseException_priv, raiseException, hr.core.pc]
    exact ⟨_, _, _, s1, takeTrap_trapEntry .., hr.core.priv, hr.core.pc,
      fun _ => ⟨hr.core.csr, rfl, exception_cause_bit e⟩, fun he => absurd he hw⟩
  | csr => simp at hlt
  | trapReturn _ hab => exact absurd (trapReturn_priv_le hab) (by omega)
  | @interrupt n hw hn =>
    rw [takeInterrupt, takeTrap_priv]
    exact ⟨_, _, _, _, takeTrap_trapEntry .., rfl, rfl, fun hne => absurd hw hne,
      fun _ => ⟨eventFold_eq_folded s, rfl, interrupt_cause_bit n⟩⟩
  | park => simp at hlt

/-- Only a trap return lowers the mode. -/
theorem ExecEffect.lowers {i : Instr} {s t : State} (h : ExecEffect i s t) (hlt : t.priv.code.toNat < s.priv.code.toNat) :
    Spec.isTrapReturn i = true := by
  cases h with
  | commit rd v next hr _ => simp [hr.core.priv] at hlt
  | reserve v _ hr _ _ => simp [hr.core.priv] at hlt
  | @trap s1 e tv _ hr =>
    have hge := exceptionTarget_ge e.code s1
    rw [raiseException_priv, ← hr.core.priv] at hlt
    omega
  | csr => simp at hlt
  | trapReturn hi _ => exact hi
  | interrupt _ hn =>
    have hge := interruptTarget_ge hn
    simp only [takeInterrupt, takeTrap_priv] at hlt
    exact absurd hge (Nat.not_le.mpr hlt)
  | park => simp at hlt

/-! ## How a step changes the mode -/

theorem readyToFetch_csr (s : State) : (readyToFetch s).csr = { s.csr with ip := (readyToFetch s).csr.ip } := wake_csr s

theorem StepEffect.raises {s t : State} (h : StepEffect s t) (hlt : s.priv.code.toNat < t.priv.code.toNat) :
    ∃ cause tval ev s1 u, t = Spec.rearmed u ∧ Spec.TrapEntry t.priv cause tval ev s1 u ∧ s1.priv = s.priv ∧
      s1.pc = s.pc ∧ s1.csr = { s.csr with ip := s1.csr.ip } ∧ (ev = s.pc ∨ ev = s.pc + 4#32) := by
  have hpriv : (readyToFetch s).priv = s.priv := wake_priv s
  have hpc : (readyToFetch s).pc = s.pc := wake_pc s
  have hcsr := readyToFetch_csr s
  cases h with
  | agent a => simp at hlt
  | parked => exact absurd hlt (lt_irrefl _)
  | @interrupt n hn =>
    have he : Spec.rearmed (takeInterrupt n s.pc (wake s)) = takeInterrupt n s.pc (wake s) := by
      rw [Spec.rearmed, if_neg]
      simpa [takeInterrupt] using wake_evInt_of_boundaryInterrupt hn
    rw [takeInterrupt, takeTrap_priv]
    exact ⟨_, _, _, wake s, _, he.symm, takeTrap_trapEntry .., wake_priv s, wake_pc s, wake_csr s, .inl rfl⟩
  | @fetchTrap s1 e tv hr =>
    refine ⟨BitVec.ofNat 32 e.code, tv, s1.pc, s1, _, rfl, ?_, hr.core.priv.trans hpriv, hr.core.pc.trans hpc, ?_, .inl (hr.core.pc.trans hpc)⟩
    · rw [rearm_priv, raiseException_priv]; exact takeTrap_trapEntry ..
    · rw [hr.core.csr]; exact hcsr
  | @run raw i s1 u hf _ hx =>
    have hc := (reaches_of_ok (fetchInstruction_reaches _) hf).core
    rw [hpc.symm.trans hc.pc.symm]
    have hlt' : s1.priv.code.toNat < u.priv.code.toNat := by rwa [hc.priv, hpriv, ← rearm_priv u]
    obtain ⟨c, tv, ev, s2, hent, hp2, hpc2, hne, heq⟩ := (exec_effect hx).raises hlt'
    refine ⟨c, tv, ev, s2, u, rfl, by rwa [rearm_priv], hp2.trans (hc.priv.trans hpriv), hpc2, ?_⟩
    have hcsr1 : s1.csr = { s.csr with ip := s1.csr.ip } := by rw [hc.csr]; exact hcsr
    by_cases hw : i = .wfi
    · obtain ⟨rfl, hev, -⟩ := heq hw
      exact ⟨by simp only [Spec.folded]; rw [hcsr1], .inr hev⟩
    · obtain ⟨hcsr2, hev, -⟩ := hne hw
      exact ⟨by rw [hcsr2]; exact hcsr1, .inl hev⟩

theorem StepEffect.lowers {s t : State} (h : StepEffect s t) (hlt : t.priv.code.toNat < s.priv.code.toNat) :
    ∃ i raw s1 u, fetchInstruction (readyToFetch s) = .ok raw s1 ∧ decodeRaw raw = .ok i ∧
      Spec.isTrapReturn i = true ∧ exec i s1 = .next u ∧ t = Spec.rearmed u := by
  have hpriv : (readyToFetch s).priv = s.priv := wake_priv s
  cases h with
  | agent a => simp at hlt
  | parked => exact absurd hlt (lt_irrefl _)
  | @interrupt n hn =>
    have hscan : interruptScan false (wake s) = some n := by
      unfold boundaryInterrupt at hn
      split at hn
      · exact hn
      · cases hn
    have hge := interruptTarget_ge hscan
    rw [takeInterrupt, takeTrap_priv] at hlt
    rw [wake_priv] at hge
    omega
  | @fetchTrap s1 e tv hr =>
    have hge := exceptionTarget_ge e.code s1
    rw [rearm_priv, raiseException_priv] at hlt
    rw [hr.core.priv, hpriv] at hge
    omega
  | @run raw i s1 u hf hd hx =>
    have hc := (reaches_of_ok (fetchInstruction_reaches _) hf).core
    have hlt' : u.priv.code.toNat < s1.priv.code.toNat := by rwa [hc.priv, hpriv, ← rearm_priv u]
    exact ⟨i, raw, s1, u, hf, hd, (exec_effect hx).lowers hlt', hx, rfl⟩

/-- Settles O7: an instruction raises the mode by a trap entry and lowers it by a return only, and so does a step. -/
theorem privilegeRisesByTrapsOnly : Obligations.PrivilegeRisesByTrapsOnly := by
  refine ⟨fun i s t hi hx hne => ?_, fun s t hst hlt => ?_, fun s t hst hlt => ?_⟩
  · have he := exec_effect hx
    have hlt : s.priv.code.toNat < t.priv.code.toNat := by
      rcases Nat.lt_trichotomy s.priv.code.toNat t.priv.code.toNat with h | h | h
      · exact h
      · exact absurd (Priv.code_toNat_injective h).symm hne
      · rw [he.lowers h] at hi; cases hi
    exact ⟨hlt, he.raises hlt⟩
  · obtain ⟨l, he⟩ := step_effect hst
    exact he.raises hlt
  · obtain ⟨l, he⟩ := step_effect hst
    obtain ⟨i, raw, s1, u, hf, hd, hi, hx, ht⟩ := he.lowers hlt
    exact ⟨i, raw, readyToFetch { s with agenda := l }, s1, u, wake_priv _, wake_pc _, wake_mem _, wake_tlb _,
      readyToFetch_csr _, hf, hd, hi, hx, ht⟩

end Sys2Proof.Machine
end

section
/-! Confinement: what an instruction that starts and ends in U mode can change of the CSR file (R33, R43, R45, R47). -/

namespace Sys2Proof.Machine

/-! ## Words that agree outside a mask -/

/-- `x` and `y` differ in bits of `m` only. -/
def AgreeOutside (m x y : Word) : Prop := x &&& ~~~m = y &&& ~~~m

theorem agreeOutside_iff {m x y : Word} :
    AgreeOutside m x y ↔ ∀ j < 32, m.getLsbD j = false → x.getLsbD j = y.getLsbD j := by
  constructor
  · intro h j hj hm
    have := congrArg (BitVec.getLsbD · j) h
    simpa only [BitVec.getLsbD_and, BitVec.getLsbD_not, hj, hm, decide_true, Bool.not_false, Bool.true_and,
      Bool.and_true] using this
  · intro h
    apply BitVec.eq_of_getLsbD_eq
    intro j hj
    cases hm : m.getLsbD j with
    | true => simp only [BitVec.getLsbD_and, BitVec.getLsbD_not, hm, Bool.not_true, Bool.and_false]
    | false => rw [BitVec.getLsbD_and, BitVec.getLsbD_and, h j hj hm]

/-- Outside the empty mask is everywhere. -/
theorem AgreeOutside.eq {x y : Word} (h : AgreeOutside 0#32 x y) : x = y :=
  BitVec.eq_of_getLsbD_eq fun j hj => agreeOutside_iff.mp h j hj (by simp)

theorem agreeOutside_allOnes (x y : Word) : AgreeOutside 0xFFFFFFFF#32 x y := by simp [AgreeOutside]

theorem agreeOutside_merge {m mask : Word} (h : bitsWithin m mask = true) (old v : Word) :
    AgreeOutside m (Spec.merge mask old v) old := by
  rw [agreeOutside_iff]
  intro j hj hm
  have hmask : mask.getLsbD j = false := by
    by_contra hc
    rw [bitsWithin_iff.mp h j hj (by simpa using hc)] at hm
    cases hm
  simp [getLsbD_merge mask old v hj, hmask]

theorem agreeOutside_setBit {m : Word} {i : Nat} (hi : m.getLsbD i = true) (w : Word) (b : Bool) :
    AgreeOutside m (setBit w i b) w := by
  rw [agreeOutside_iff]
  intro j hj hm
  have hij : i ≠ j := by rintro rfl; rw [hi] at hm; cases hm
  rw [getLsbD_setBit w i b j hj, if_neg hij]

/-! ## The CSR file -/

/-- The bits of a storage register a U-level instruction may change (R37, R43, R45, R47); of ip any, where `wfi`, since
WFI folds posted bits into it (R407). -/
def userBits (wfi : Bool) : CsrStorage → Word
  | .status => 0x11#32
  | .ie => 0x111#32
  | .ip => if wfi then 0xFFFFFFFF#32 else 0x111#32
  | .tvec .user | .epc .user | .cause .user | .tval .user | .scratch .user => 0xFFFFFFFF#32
  | _ => 0#32

/-- `d` differs from `c` in those bits only. -/
def Confined (wfi : Bool) (c d : CsrFile) : Prop :=
  ∀ st, AgreeOutside (userBits wfi st) (readStorage d st) (readStorage c st)

theorem Confined.refl (wfi : Bool) (c : CsrFile) : Confined wfi c c := fun _ => rfl

theorem Confined.trans {wfi : Bool} {c d e : CsrFile} (h : Confined wfi c d) (h' : Confined wfi d e) : Confined wfi c e :=
  fun st => (h' st).trans (h st)

theorem writeStorage_confined {wfi : Bool} {c : CsrFile} {st : CsrStorage} {v : Word}
    (h : AgreeOutside (userBits wfi st) v (readStorage c st)) : Confined wfi c (writeStorage c st v) := by
  intro st'
  by_cases he : st' = st
  · subst he
    cases hc : st'.isConstant with
    | false => rwa [readStorage_writeStorage_same hc]
    | true => cases st' <;> simp_all [CsrStorage.isConstant, AgreeOutside]
  · rw [readStorage_writeStorage_other he]; exact rfl

/-- The rows a U-level access reaches write U-level bits only (R33, R37). -/
theorem csrTable_user_wmask {row : CsrRow} (wfi : Bool) (h : row ∈ csrTable)
    (hu : (row.addr.extractLsb' 8 2).toNat ≤ Priv.user.code.toNat) :
    bitsWithin (userBits wfi row.storage) row.wmask = true := by
  have key : ∀ r ∈ csrTable, (r.addr.extractLsb' 8 2).toNat ≤ Priv.user.code.toNat →
      ∀ b, bitsWithin (userBits b r.storage) r.wmask = true := by decide
  exact key row h hu wfi

theorem csrAccess_confined {a : CsrAddr} {op : CsrOp} {row : CsrRow} (wfi : Bool) (src : Word) {s : State}
    (hrow : csrCheck a op .user = some row) : Confined wfi s.csr (csrAccess row op src s).csr := by
  obtain ⟨hu, hf, -⟩ := csrCheck_eq_some_iff.mp hrow
  obtain ⟨hmem, rfl⟩ := csrFind_some hf
  by_cases hop : op = .read
  · rw [hop, csrAccess_read]; exact .refl wfi _
  · rw [csrAccess_csr hop]
    refine writeStorage_confined (agreeOutside_merge ?_ _ _)
    have hw := csrTable_user_wmask wfi hmem hu
    unfold csrWriteMask
    split
    · exact bitsWithin_and_left hw _
    · exact hw

/-- A trap into U mode writes the U-level trap registers, UIE and UPIE (R450). -/
theorem takeTrap_user_confined (wfi : Bool) (c tv ev : Word) (s : State) :
    Confined wfi s.csr (takeTrap .user c tv ev s).csr := by
  have hepc := writeStorage_confined (wfi := wfi) (c := s.csr) (st := .epc .user) (agreeOutside_allOnes
    (ev &&& 0xFFFFFFFE#32) _)
  have hcause := hepc.trans (writeStorage_confined (st := .cause .user) (agreeOutside_allOnes c _))
  have htval := hcause.trans (writeStorage_confined (st := .tval .user) (agreeOutside_allOnes tv _))
  have hstatus : AgreeOutside 0x11#32 (trapStatus .user s.priv s.csr.status) s.csr.status :=
    (agreeOutside_setBit (by decide) _ _).trans (agreeOutside_setBit (by decide) _ _)
  rw [takeTrap_csr]
  exact htval.trans (writeStorage_confined (st := .status) hstatus)

/-- URET writes UIE and UPIE (R403). -/
theorem trapReturn_user_confined (wfi : Bool) (s : State) : Confined wfi s.csr (trapReturn .user s).csr := by
  have hstatus : AgreeOutside 0x11#32 (retStatus .user s.csr.status) s.csr.status :=
    (agreeOutside_setBit (by decide) _ _).trans (agreeOutside_setBit (by decide) _ _)
  rw [trapReturn_csr]
  exact writeStorage_confined (st := .status) hstatus

theorem eventFold_confined (s : State) : Confined true s.csr (eventFold s).csr := by
  rw [eventFold_csr]
  exact writeStorage_confined (st := .ip) (agreeOutside_allOnes _ _)

/-! ## Instructions in U mode -/

theorem ExecEffect.confined {i : Instr} {s t : State} (h : ExecEffect i s t) (hs : s.priv = .user) (ht : t.priv = .user) :
    Confined (decide (i = .wfi)) s.csr t.csr := by
  cases h with
  | commit rd v next hr _ => simp [hr.core.csr, Confined.refl]
  | reserve v _ hr _ _ => simp [hr.core.csr, Confined.refl]
  | @trap s1 e tv _ hr =>
    rw [raiseException_priv] at ht
    rw [← hr.core.csr, raiseException, ht]
    exact takeTrap_user_confined _ _ _ _ _
  | csr src rd _ hrow =>
    rw [hs] at hrow
    simpa using csrAccess_confined _ src hrow
  | @trapReturn x _ hab =>
    have hx : x = .user := by rw [hs] at hab; revert hab; cases x <;> decide
    rw [hx]
    exact trapReturn_user_confined _ _
  | interrupt hw _ =>
    simp only [takeInterrupt, takeTrap_priv] at ht
    rw [takeInterrupt, ht, hw]
    exact (eventFold_confined s).trans (takeTrap_user_confined _ _ _ _ _)
  | park hw => rw [hw]; exact eventFold_confined s

/-- Settles O8: every effect of an instruction that starts and ends in U mode is confined to the U-level bits. -/
theorem userModeConfinement : Obligations.UserModeConfinement := by
  intro i s t hs hx ht
  have h := (exec_effect hx).confined hs ht
  refine ⟨fun p hp => ?_, (h .medeleg).eq, (h .sedeleg).eq, (h .mideleg).eq, (h .sideleg).eq, (h .mcounteren).eq,
    (h .scounteren).eq, (h .satp).eq, (h .hartid).eq, h .status, h .ie, fun hi => ?_⟩
  · rcases hp with rfl | rfl
    · exact ⟨(h (.tvec .supervisor)).eq, (h (.epc .supervisor)).eq, (h (.cause .supervisor)).eq,
        (h (.tval .supervisor)).eq, (h (.scratch .supervisor)).eq⟩
    · exact ⟨(h (.tvec .machine)).eq, (h (.epc .machine)).eq, (h (.cause .machine)).eq, (h (.tval .machine)).eq,
        (h (.scratch .machine)).eq⟩
  · simpa [userBits, hi, AgreeOutside, readStorage] using h .ip

end Sys2Proof.Machine
end

section
/-! The six CSR instructions: what one does whose access is allowed, what it does when it is denied, and the map of R37
as the specification lists it. -/

namespace Sys2Proof.Machine

/-! ## An access that is allowed -/

/-- The state after a CSR instruction whose access is allowed (R410). -/
def csrCommit (row : CsrRow) (op : CsrOp) (src : Word) (rd : Reg) (s : State) : State :=
  advance 4#32 (writeReg rd (csrValue row s) (csrAccess row op src s))

theorem exec_of_csrForm {i : Instr} {s : State} {a : CsrAddr} {op : CsrOp} {src : Word} {rd : Reg}
    (h : Spec.csrForm i s = some (a, op, src, rd)) : exec i s = csrInstruction a op src rd (encode i).bits s := by
  cases i with
  | csrrw | csrrs | csrrc | csrrwi | csrrsi | csrrci => cases h; rfl
  | _ => cases h

theorem exec_eq_csrCommit {i : Instr} {s : State} {a : CsrAddr} {op : CsrOp} {src : Word} {rd : Reg} {row : CsrRow}
    (hi : Spec.csrForm i s = some (a, op, src, rd)) (hc : csrCheck a op s.priv = some row) :
    exec i s = .next (csrCommit row op src rd s) := by
  rw [exec_of_csrForm hi, csrInstruction, hc]
  rfl

section
variable {row : CsrRow} {op : CsrOp} (src : Word) (rd : Reg) (s : State)

@[simp] theorem csrCommit_csr : (csrCommit row op src rd s).csr = (csrAccess row op src s).csr := by simp [csrCommit]
@[simp] theorem csrCommit_tlb : (csrCommit row op src rd s).tlb = (csrAccess row op src s).tlb := by simp [csrCommit]
@[simp] theorem csrCommit_evInt : (csrCommit row op src rd s).evInt = (csrAccess row op src s).evInt := by
  simp [csrCommit]
@[simp] theorem csrCommit_waitEvent : (csrCommit row op src rd s).waitEvent = (csrAccess row op src s).waitEvent := by
  simp [csrCommit]
@[simp] theorem csrCommit_pc : (csrCommit row op src rd s).pc = s.pc + 4#32 := by simp [csrCommit]
@[simp] theorem csrCommit_priv : (csrCommit row op src rd s).priv = s.priv := by simp [csrCommit]

theorem csrCommit_wrote : Spec.Wrote rd (csrValue row s) s (csrCommit row op src rd s) := by
  intro r
  rw [csrCommit, readReg_advance, readReg_writeReg, readReg_congr (csrAccess_regs row op src s)]

theorem csrCommit_sameBytes : Spec.SameBytes s (csrCommit row op src rd s) := fun a => by simp [csrCommit]

theorem csrCommit_read : csrCommit row .read src rd s = advance 4#32 (writeReg rd (csrValue row s) s) := rfl

/-- A read changes nothing but x[rd] and pc (R411). -/
theorem csrCommit_read_frame : Spec.OnlyRegsAndPc s (csrCommit row .read src rd s) := by
  rw [csrCommit_read]
  refine ⟨⟨?_, ?_⟩, by simp, by simp, fun a => by simp⟩
  · constructor <;> simp
  · constructor <;> simp

/-! ## The side effect of a write (R37, R133, R134, R466) -/

theorem csrTable_flush {row : CsrRow} (h : row ∈ csrTable) : row.effect = .flush ↔ row.addr = 0x180#12 := by
  have key : ∀ r ∈ csrTable, (r.effect = .flush ↔ r.addr = 0x180#12) := by decide
  exact key row h

theorem csrTable_signal {row : CsrRow} (h : row ∈ csrTable) :
    row.addr ∈ Spec.selfSignalling ↔ row.effect = .signal ∨ row.effect = .contextAndSignal := by
  have key : ∀ r ∈ csrTable, (r.addr ∈ Spec.selfSignalling ↔ r.effect = .signal ∨ r.effect = .contextAndSignal) := by
    decide
  exact key row h

theorem csrTable_context {row : CsrRow} (h : row ∈ csrTable) : row.storage = .status ↔ row.effect = .contextAndSignal := by
  have key : ∀ r ∈ csrTable, (r.storage = .status ↔ r.effect = .contextAndSignal) := by decide
  exact key row h

theorem translationContext_congr {s t : State} (hp : t.priv = s.priv) (hs : t.csr.status = s.csr.status) :
    translationContext t = translationContext s := by simp only [translationContext, hp, hs]

variable {src rd s}

theorem csrAccess_of_write (h : op ≠ .read) : csrAccess row op src s = csrEffect row.effect (translationContext s)
    { s with csr := writeStorage s.csr row.storage (csrStored row op src s) } := if_neg h

/-- The TLB is flushed by a write of satp, and by one that changed the translation context. -/
theorem csrCommit_tlb_of_write (hrow : row ∈ csrTable) (hop : op ≠ .read) :
    (csrCommit row op src rd s).tlb = if row.addr = 0x180#12 then [] else
      if translationContext (csrCommit row op src rd s) = translationContext s then s.tlb else [] := by
  have hflush := csrTable_flush hrow
  have hctx : translationContext (csrCommit row op src rd s) =
      translationContext { s with csr := writeStorage s.csr row.storage (csrStored row op src s) } :=
    translationContext_congr (by simp) (by simp [csrAccess_csr hop])
  have hsame (hne : row.effect ≠ .contextAndSignal) :
      translationContext (csrCommit row op src rd s) = translationContext s :=
    translationContext_congr (by simp) (by
      rw [csrCommit_csr]
      exact readStorage_csrAccess_other (st := .status) fun hs => hne ((csrTable_context hrow).mp hs.symm))
  rw [csrCommit_tlb, csrAccess_of_write hop]
  cases he : row.effect with
  | flush => rw [if_pos (hflush.mp he)]; rfl
  | none | signal =>
    rw [if_neg (mt hflush.mpr (by simp [he])), if_pos (hsame (by simp [he]))]; rfl
  | contextAndSignal =>
    rw [if_neg (mt hflush.mpr (by simp [he])), hctx, csrEffect, selfSignal_tlb, contextFlush_tlb]

/-- The CSRs that self-signal, and no others, post the event check (R466). -/
theorem csrCommit_signal_of_write (hrow : row ∈ csrTable) (hop : op ≠ .read) :
    if row.addr ∈ Spec.selfSignalling then
      (csrCommit row op src rd s).evInt = true ∧ (csrCommit row op src rd s).waitEvent = false
    else (csrCommit row op src rd s).evInt = s.evInt ∧ (csrCommit row op src rd s).waitEvent = s.waitEvent := by
  have hsig := csrTable_signal hrow
  rw [csrCommit_evInt, csrCommit_waitEvent, csrAccess_of_write hop]
  cases he : row.effect with
  | none | flush => rw [if_neg (mt hsig.mp (by simp [he]))]; exact ⟨rfl, rfl⟩
  | signal | contextAndSignal => rw [if_pos (hsig.mpr (by simp [he]))]; exact ⟨rfl, rfl⟩

end

/-- Settles O47: the check lets the access through, and the layer above says what it leaves in each field. -/
theorem csrInstructionResults : Obligations.CsrInstructionResults := by
  intro i s a op src rd row hi ha hf old new mask
  have hexec := exec_eq_csrCommit hi (csrCheck_of_allowed ha hf)
  obtain ⟨hrow, rfl⟩ := csrFind_some hf
  have hnew : new = csrNewValue op (csrValue row s) src := by cases op <;> rfl
  refine ⟨_, hexec, csrCommit_wrote src rd s, by simp, csrCommit_sameBytes src rd s, by simp, by simp [csrCommit],
    by simp [csrCommit], by simp [csrCommit], by simp [csrCommit], by simp [csrCommit], by simp [csrCommit],
    by simp [csrCommit], by simp [csrCommit], by simp [csrCommit], by simp [csrCommit], by simp [csrCommit], ?_, ?_⟩
  · rintro rfl
    simp [csrAccess_read]
  · intro hop
    have hstored := readStorage_csrAccess_same (src := src) (s := s) hrow hop
    simp only [csrStored, ← hnew] at hstored
    exact ⟨by rw [csrCommit_csr]; exact hstored, fun st hst => by rw [csrCommit_csr, readStorage_csrAccess_other hst],
      by simp, by simp, by simp, csrCommit_tlb_of_write hrow hop, csrCommit_signal_of_write hrow hop⟩

/-- Settles O48: the check refuses the access, and the instruction raises IllegalInstruction with its own word. -/
theorem csrAccessDenied : Obligations.CsrAccessDenied := by
  intro i s a op src rd hi hna
  rw [exec_of_csrForm hi, csrInstruction, csrCheck_of_not_allowed hna]
  exact raiseException_traps (.refl s) .illegalInstruction _

/-! ## The map (R37) -/

/-- The read mask of a CSR whose every bit is readable, in the spelling of the map. -/
theorem and_fullMask (w : Word) : w &&& 0xFFFFFFFF#32 = w := BitVec.and_allOnes

theorem merge_allOnes (old v : Word) : Spec.merge 0xFFFFFFFF#32 old v = v :=
  BitVec.eq_of_getLsbD_eq fun j hj => by
    rw [getLsbD_merge _ _ _ hj, show 0xFFFFFFFF#32 = BitVec.allOnes 32 from rfl, BitVec.getLsbD_allOnes,
      if_pos (decide_eq_true hj)]

/-- What the specification says each CSR reads as is the storage of its row under the read mask. -/
theorem csrReads_eq_map (c : CsrFile) :
    Spec.csrReads c = csrTable.map fun r => (r.addr, readStorage c r.storage &&& r.rmask) := by
  simp only [Spec.csrReads, csrTable, userCsrs, supervisorCsrs, machineCsrs, List.map_cons, List.map_nil,
    List.cons_append, List.nil_append, readStorage, Banked.get, and_fullMask]

/-- Settles O49: the addresses of the map are those of the table, each read as its row. -/
theorem csrMap : Obligations.CsrMap := by
  constructor
  · intro s rd a v hp hav
    rw [csrReads_eq_map, List.mem_map] at hav
    obtain ⟨row, hrow, heq⟩ := hav
    cases heq
    have hc : csrCheck row.addr .read s.priv = some row :=
      csrCheck_eq_some_iff.mpr ⟨hp, csrFind_addr hrow, fun h => h.2 rfl⟩
    exact ⟨_, exec_eq_csrCommit (i := .csrrs rd row.addr 0#5) rfl hc, csrCommit_wrote _ rd s, by simp,
      csrCommit_read_frame _ rd s⟩
  · intro s a hno
    cases hf : csrFind a with
    | none => rfl
    | some row =>
      obtain ⟨hrow, rfl⟩ := csrFind_some hf
      refine absurd ?_ (hno (readStorage s.csr row.storage &&& row.rmask))
      rw [csrReads_eq_map]
      exact List.mem_map.mpr ⟨row, hrow, rfl⟩

/-- The rows a write can reach, the views of `status` apart. -/
def plainlyWritable (r : CsrRow) : Bool := decide (r.storage ≠ .status) && decide (r.addr.extractLsb' 10 2 ≠ 3#2)

/-- What the specification says a write leaves is the storage of its row with the bits of the write mask replaced. -/
theorem csrWrites_eq_map (c : CsrFile) (v : Word) : Spec.csrWrites c v = (csrTable.filter plainlyWritable).map fun r =>
    (r.addr, writeStorage c r.storage (Spec.merge r.wmask (readStorage c r.storage) v)) := by
  have hfilter : csrTable.filter plainlyWritable = (userCsrs.drop 1) ++ (supervisorCsrs.drop 1) ++
      ((machineCsrs.drop 1).take 11) := by decide
  rw [hfilter]
  simp only [Spec.csrWrites, userCsrs, supervisorCsrs, machineCsrs, List.drop_succ_cons, List.drop_zero,
    List.take_succ_cons, List.take_zero, List.map_cons, List.map_nil,
    List.cons_append, List.nil_append, readStorage, writeStorage, Banked.get, Banked.set, merge_allOnes]

/-- Settles O50: CSRRW through each writable row. -/
theorem csrWrites : Obligations.CsrWrites := by
  intro s rd rs1 a c hp hac
  rw [csrWrites_eq_map, List.mem_map] at hac
  obtain ⟨row, hmem, heq⟩ := hac
  cases heq
  obtain ⟨hrow, hw⟩ := List.mem_filter.mp hmem
  simp only [plainlyWritable, Bool.and_eq_true, decide_eq_true_eq] at hw
  obtain ⟨hst, hro⟩ := hw
  have hc : csrCheck row.addr .write s.priv = some row :=
    csrCheck_eq_some_iff.mpr ⟨hp, csrFind_addr hrow, fun h => hro h.1⟩
  refine ⟨_, exec_eq_csrCommit (i := .csrrw rd row.addr rs1) rfl hc, ?_, by simp, by simp⟩
  rw [csrCommit_csr, csrAccess_csr (op := .write) (by decide), csrStored_of_ne_status hst]
  rfl

/-! ## The views of `status` (R41, R42, R43) -/

/-- The row of each view. -/
theorem csrTable_statusView {a : CsrAddr} {view : Word}
    (h : (a, view) ∈ [(0x300#12, 0x000E19BB#32), (0x100#12, 0x000C0133#32), (0x000#12, 0x00000011#32)]) :
    (⟨a, .status, view, view, .contextAndSignal⟩ : CsrRow) ∈ csrTable ∧ a.extractLsb' 10 2 ≠ 3#2 ∧ a ≠ 0x180#12 ∧
      a ∈ Spec.selfSignalling ∧ view &&& ~~~0x1800#32 = if a = 0x300#12 then 0x000E01BB#32 else view := by
  simp only [List.mem_cons, Prod.mk.injEq, List.not_mem_nil, or_false] at h
  obtain ⟨rfl, rfl⟩ | ⟨rfl, rfl⟩ | ⟨rfl, rfl⟩ := h
  · exact ⟨(csrFind_some (a := 0x300#12) rfl).1, by decide⟩
  · exact ⟨(csrFind_some (a := 0x100#12) rfl).1, by decide⟩
  · exact ⟨(csrFind_some (a := 0x000#12) rfl).1, by decide⟩

/-- Settles O51: each view is a row over `status`, whose write mask loses MPP where the new MPP would be 2. -/
theorem statusViews : Obligations.StatusViews := by
  intro i s a op src rd view hi hp hview old new mask
  obtain ⟨hrow, hro, hsatp, hsig, hmpp⟩ := csrTable_statusView hview
  have hc := csrCheck_eq_some_iff (op := op).mpr ⟨hp, csrFind_addr hrow, fun h => hro h.1⟩
  have hexec := exec_eq_csrCommit hi hc
  refine ⟨?_, fun hop => ?_⟩
  · rintro rfl
    exact ⟨_, hexec, csrCommit_wrote src rd s, by simp, csrCommit_read_frame src rd s⟩
  · have hnew : new = csrNewValue op old src := by cases op <;> rfl
    have hmask : mask = csrWriteMask ⟨a, .status, view, view, .contextAndSignal⟩ new := by
      show (if a = 0x300#12 ∧ statusMPP new = 2#2 then _ else _) = if _ ∧ statusMPP new = 2#2 then _ else _
      rw [hmpp]
      by_cases hm : statusMPP new = 2#2
      · simp only [hm, and_true, if_true]
      · simp only [hm, and_false, if_false]
    have htlb := csrCommit_tlb_of_write (src := src) (rd := rd) (s := s) hrow hop
    have hsignal := csrCommit_signal_of_write (src := src) (rd := rd) (s := s) hrow hop
    rw [if_neg hsatp] at htlb
    rw [if_pos hsig] at hsignal
    refine ⟨_, hexec, csrCommit_wrote src rd s, ?_, htlb, hsignal.1, hsignal.2, by simp, by simp,
      csrCommit_sameBytes src rd s⟩
    rw [csrCommit_csr, csrAccess_csr hop, hmask, hnew]
    rfl

end Sys2Proof.Machine
end

section
/-! Memory and page-table entries in the words of the specification: words in bytes (R100), the addresses and fields of
a walk (R122, R123, R126), and the update of a leaf's A and D bits (R128). -/

namespace Sys2Proof.Machine

/-! ## Words in bytes (R100) -/

theorem readBytes_byte (m : Memory) (a : Nat) : readBytes m a 1 = (readByte m a).zeroExtend 32 := by
  simp [readBytes, zext]

theorem readBytes_word (m : Memory) (a : Nat) : readBytes m a 4 = Spec.word4 m a := by
  apply BitVec.eq_of_getLsbD_eq
  intro i hi
  simp only [readBytes, Spec.word4, zext, BitVec.getLsbD_or, BitVec.getLsbD_shiftLeft, BitVec.truncate_eq_setWidth,
    BitVec.getLsbD_setWidth, BitVec.getLsbD_zero, BitVec.getLsbD_append]
  interval_cases i <;> simp

/-- What a byte of a stored value reads as. -/
theorem readByte_writeBytes_byteOf {n k : Nat} (hk : k < n) (a : Nat) (v : Word) {m : Memory} (h : m.wf = true) :
    readByte (writeBytes a v m n) (a + k) = Spec.byteOf v k := by
  rw [readByte_writeBytes_inside n a k hk v h]
  apply BitVec.eq_of_getLsbD_eq
  intro i hi
  simp [Spec.byteOf]

theorem byteOf_or (v w : Word) (k : Nat) : Spec.byteOf (v ||| w) k = Spec.byteOf v k ||| Spec.byteOf w k :=
  BitVec.extractLsb'_or

theorem byteOf_word4 {k : Nat} (hk : k < 4) (m : Memory) (a : Nat) : Spec.byteOf (Spec.word4 m a) k = readByte m (a + k) := by
  apply BitVec.eq_of_getLsbD_eq
  intro i hi
  simp only [Spec.byteOf, Spec.word4, BitVec.getLsbD_extractLsb', BitVec.getLsbD_append, hi, decide_true, Bool.true_and]
  interval_cases k
  · simp [hi]
  · rw [if_neg (by omega), if_pos (by omega)]; simp
  · rw [if_neg (by omega), if_neg (by omega), if_pos (by omega)]; congr 1; omega
  · rw [if_neg (by omega), if_neg (by omega), if_neg (by omega)]; congr 1; omega

/-! ## Addresses (R123) -/

theorem toNat_append_eq_add {n m : Nat} (x : BitVec n) (y : BitVec m) : (x ++ y).toNat = x.toNat * 2 ^ m + y.toNat := by
  rw [BitVec.toNat_append, ← Nat.shiftLeft_add_eq_or_of_lt y.isLt, Nat.shiftLeft_eq]

theorem append_eq_ofNat {n m : Nat} (x : BitVec n) (y : BitVec m) :
    x ++ y = BitVec.ofNat (n + m) (x.toNat * 2 ^ m + y.toNat) := by
  rw [← toNat_append_eq_add, BitVec.ofNat_toNat, BitVec.setWidth_eq]

theorem toNat_extractLsb'_zero {n : Nat} (x : BitVec n) (len : Nat) : (x.extractLsb' 0 len).toNat = x.toNat % 2 ^ len := by
  simp

/-- An entry's address: the table's page, and four bytes for each entry below it. -/
theorem entryAddr_eq (ppn : BitVec 22) (vpn : BitVec 10) :
    (ppn ++ vpn ++ 0#2 : BitVec 34) = BitVec.ofNat 34 (ppn.toNat * 4096 + vpn.toNat * 4) := by
  rw [append_eq_ofNat, toNat_append_eq_add]
  congr 1
  simp only [BitVec.toNat_ofNat]
  omega

theorem level1Addr_eq_entry1 (va : Word) (s : State) : level1Addr (satpPpn s) va = Spec.entry1 va s := entryAddr_eq ..

theorem level0Addr_eq_entry0 (pte va : Word) : level0Addr (ptePpn pte) va = Spec.entry0 pte va := entryAddr_eq ..

theorem pageAddr_eq (pte va : Word) : (ptePpn pte ++ va.extractLsb' 0 12 : PhysAddr) =
    BitVec.ofNat 34 ((pte.extractLsb' 10 22).toNat * 4096 + va.toNat % 4096) := by
  rw [append_eq_ofNat, toNat_extractLsb'_zero]; rfl

theorem superpageAddr_eq (pte va : Word) : (ptePpn1 pte ++ va.extractLsb' 0 22 : PhysAddr) =
    BitVec.ofNat 34 ((pte.extractLsb' 20 12).toNat * 2 ^ 22 + va.toNat % 2 ^ 22) := by
  rw [append_eq_ofNat, toNat_extractLsb'_zero]; rfl

/-! ## The fields of an entry (R122, R126) -/

theorem pteInvalid_iff (pte : Word) : pteInvalid pte = true ↔ Spec.Invalid pte := by
  simp [pteInvalid, Spec.Invalid, pteV, pteW, pteR]

theorem pteLeaf_iff (pte : Word) : pteLeaf pte = true ↔ Spec.Leaf pte := by
  simp [pteLeaf, Spec.Leaf, pteR, pteX]

/-- The permission check of a walk below M, in whatever state of the walk it is made. -/
theorem permitted_iff {pte : Word} {ty : AccessType} {s t : State} (hm : effPriv ty s ≠ .machine) (hc : t.csr = s.csr) :
    permitted pte ty (effPriv ty s) t = true ↔ Spec.Allowed pte ty s := by
  simp only [permitted, Spec.Allowed, hc, Bool.and_eq_true, ← and_assoc]
  cases he : effPriv ty s with
  | machine => exact absurd he hm
  | user => cases ty <;> simp [pteU, pteX, pteR, pteW, statusMXR]
  | supervisor =>
    simp only [pteU]
    cases pte.getLsbD 4 with
    | false => cases ty <;> simp [pteX, pteR, pteW, statusMXR]
    | true => cases ty <;> simp [pteX, pteR, pteW, statusMXR, statusSUM]

/-! ## The A and D bits (R128) -/

theorem getLsbD_adBits (ty : AccessType) {j : Nat} (hj : j < 32) :
    (adBits ty).getLsbD j = (decide (j = 6) || (decide (ty = .store) && decide (j = 7))) := by
  have key : ∀ k < 32, (adBits ty).getLsbD k = (decide (k = 6) || (decide (ty = .store) && decide (k = 7))) := by
    cases ty <;> decide
  exact key j hj

theorem byteOf_adBits (ty : AccessType) : Spec.byteOf (adBits ty) 0 = if ty = .store then 0xC0#8 else 0x40#8 := by
  cases ty <;> rfl

theorem byteOf_adBits_high (ty : AccessType) {k : Nat} (h0 : 0 < k) (hk : k < 4) : Spec.byteOf (adBits ty) k = 0#8 := by
  have key : ∀ k < 4, 0 < k → Spec.byteOf (adBits ty) k = 0#8 := by cases ty <;> decide
  exact key k hk h0

theorem needsUpdate_eq_false_iff (pte : Word) (ty : AccessType) :
    Spec.needsUpdate pte ty = false ↔ pte &&& adBits ty = adBits ty := by
  have hbits : pte &&& adBits ty = adBits ty ↔ ∀ j < 32, (adBits ty).getLsbD j = true → pte.getLsbD j = true := by
    constructor
    · intro h j _ hj
      rw [← h, BitVec.getLsbD_and, Bool.and_eq_true] at hj
      exact hj.1
    · intro h
      apply BitVec.eq_of_getLsbD_eq
      intro j hj
      rw [BitVec.getLsbD_and]
      cases ha : (adBits ty).getLsbD j with
      | false => simp
      | true => simp [h j hj ha]
  have hneeds : Spec.needsUpdate pte ty = false ↔
      pte.getLsbD 6 = true ∧ (ty = .store → pte.getLsbD 7 = true) := by
    simp only [Spec.needsUpdate, Bool.or_eq_false_iff, Bool.not_eq_false', Bool.and_eq_false_imp, decide_eq_true_eq]
  rw [hbits, hneeds]
  constructor
  · rintro ⟨h6, h7⟩ j hj hm
    simp only [getLsbD_adBits ty hj, Bool.or_eq_true, Bool.and_eq_true, decide_eq_true_eq] at hm
    obtain rfl | ⟨ht, rfl⟩ := hm
    · exact h6
    · exact h7 ht
  · intro h
    refine ⟨h 6 (by decide) ?_, fun ht => h 7 (by decide) ?_⟩
    · rw [getLsbD_adBits ty (by decide)]; rfl
    · rw [getLsbD_adBits ty (by decide), ht]; rfl

/-- Setting the bits changes the first byte of the entry only. -/
theorem readByte_orAD (a : PhysAddr) (ty : AccessType) {s : State} (h : s.mem.wf = true) (b : Nat) :
    readByte (orAD a ty s).mem b =
      if b = a.toNat then readByte s.mem b ||| (if ty = .store then 0xC0#8 else 0x40#8) else readByte s.mem b := by
  by_cases hout : b < a.toNat ∨ a.toNat + 4 ≤ b
  · rw [if_neg (by omega)]
    exact readByte_writeBytes_outside 4 _ b hout _ _
  · obtain ⟨k, rfl⟩ : ∃ k, b = a.toNat + k := ⟨b - a.toNat, by omega⟩
    have hk : k < 4 := by omega
    have hbyte : readByte (orAD a ty s).mem (a.toNat + k) = readByte s.mem (a.toNat + k) ||| Spec.byteOf (adBits ty) k := by
      rw [orAD, readByte_writeBytes_byteOf hk _ _ h, byteOf_or, readBytes_word, byteOf_word4 hk]
    rw [hbyte]
    cases k with
    | zero => simp [byteOf_adBits]
    | succ k => simp [byteOf_adBits_high ty (Nat.succ_pos k) hk]

end Sys2Proof.Machine
end

section
/-! The walk in the words of the specification (R120 to R131): what each entry leads to, and what a translation that
succeeds has changed. -/

namespace Sys2Proof.Machine

/-! ## Frames in the words of the specification -/

theorem SamePrivate.sameHart {s t : State} (h : SamePrivate s t) : Spec.SameHart s t :=
  ⟨h.priv, h.csr, h.cfg, h.parked, h.evTrap, h.mmioLog, h.agenda⟩

theorem SamePrivate.sameRegs {s t : State} (h : SamePrivate s t) : Spec.SameRegs s t := readReg_congr h.regs

theorem accessFault_eq (ty : AccessType) : accessFault ty = Spec.accessFaultOf ty := by cases ty <;> rfl
theorem pageFault_eq (ty : AccessType) : pageFault ty = Spec.pageFaultOf ty := by cases ty <;> rfl

/-! ## An entry read (R124, R141) -/

theorem pteRead_of_inRam {a : PhysAddr} {s : State} (h : inRam s.cfg a 4 = true) (ty : AccessType) (va : Word) :
    pteRead a ty va s = .ok (Spec.word4 (interleave s).mem a.toNat) (interleave s) := by
  rw [pteRead, if_pos h, readBytes_word]

theorem pteRead_of_not_inRam {a : PhysAddr} {s : State} (h : inRam s.cfg a 4 = false) (ty : AccessType) (va : Word) :
    pteRead a ty va s = .raise (Spec.accessFaultOf ty) va s := by
  rw [pteRead, if_neg (by simp [h]), accessFault_eq]

/-! ## The level-0 entry (R123 step 4)

`s0` is the state in which the translation began; the walk reads the entry at `a` at the event
`interleave s`. -/

section
variable {a : PhysAddr} {va pte : Word} {ty : AccessType} {s s0 : State}

theorem walkLevel0_of_not_inRam (h : inRam s.cfg a 4 = false) (eff : Priv) :
    walkLevel0 a va ty eff s = .raise (Spec.accessFaultOf ty) va s := by
  rw [walkLevel0, pteRead_of_not_inRam h, Access.andThen]

theorem walkLevel0_fault (hr : inRam s.cfg a 4 = true) (hpte : pte = Spec.word4 (interleave s).mem a.toNat)
    (hm : effPriv ty s0 ≠ .machine) (hc : s.csr = s0.csr)
    (h : Spec.Invalid pte ∨ ¬ Spec.Leaf pte ∨ ¬ Spec.Allowed pte ty s0) :
    walkLevel0 a va ty (effPriv ty s0) s = .raise (Spec.pageFaultOf ty) va (interleave s) := by
  rw [walkLevel0, pteRead_of_inRam hr, ← hpte, Access.andThen, ← pageFault_eq]
  have hp := permitted_iff (pte := pte) (t := interleave s) hm (by simp [hc])
  rcases h with hi | hl | ha
  · rw [if_pos ((pteInvalid_iff pte).mpr hi)]
  · simp [Bool.eq_false_iff.mpr (mt (pteLeaf_iff pte).mp hl)]
  · simp [Bool.eq_false_iff.mpr (mt hp.mp ha)]

theorem walkLevel0_leaf (hr : inRam s.cfg a 4 = true) (hpte : pte = Spec.word4 (interleave s).mem a.toNat)
    (hm : effPriv ty s0 ≠ .machine) (hc : s.csr = s0.csr)
    (hi : ¬ Spec.Invalid pte) (hl : Spec.Leaf pte) (ha : Spec.Allowed pte ty s0) :
    walkLevel0 a va ty (effPriv ty s0) s =
      .ok (BitVec.ofNat 34 ((pte.extractLsb' 10 22).toNat * 4096 + va.toNat % 4096)) (updateAD a pte ty (interleave s)) := by
  rw [walkLevel0, pteRead_of_inRam hr, ← hpte, Access.andThen, ← pageAddr_eq]
  have hp := permitted_iff (pte := pte) (t := interleave s) hm (by simp [hc])
  simp [mt (pteInvalid_iff pte).mp hi, (pteLeaf_iff pte).mpr hl, hp.mpr ha]

/-! ## The level-1 entry (R123 steps 2 and 3) -/

theorem walk_of_not_inRam (h : inRam s.cfg (Spec.entry1 va s) 4 = false) (eff : Priv) :
    walk va ty eff s = .raise (Spec.accessFaultOf ty) va s := by
  rw [walk, level1Addr_eq_entry1, pteRead_of_not_inRam h, Access.andThen]

theorem walk_invalid (hr : inRam s.cfg (Spec.entry1 va s) 4 = true)
    (hpte : pte = Spec.word4 (interleave s).mem (Spec.entry1 va s).toNat) (hi : Spec.Invalid pte) (eff : Priv) :
    walk va ty eff s = .raise (Spec.pageFaultOf ty) va (interleave s) := by
  rw [walk, level1Addr_eq_entry1, pteRead_of_inRam hr, ← hpte, Access.andThen, if_pos ((pteInvalid_iff pte).mpr hi),
    pageFault_eq]

/-- A pointer leads to the level-0 entry. -/
theorem walk_pointer (hr : inRam s.cfg (Spec.entry1 va s) 4 = true)
    (hpte : pte = Spec.word4 (interleave s).mem (Spec.entry1 va s).toNat) (hi : ¬ Spec.Invalid pte)
    (hl : ¬ Spec.Leaf pte) (eff : Priv) :
    walk va ty eff s = walkLevel0 (Spec.entry0 pte va) va ty eff (interleave s) := by
  rw [walk, level1Addr_eq_entry1, pteRead_of_inRam hr, ← hpte, Access.andThen, if_neg (mt (pteInvalid_iff pte).mp hi),
    if_neg (mt (pteLeaf_iff pte).mp hl), level0Addr_eq_entry0]

theorem walk_superpage_fault (hr : inRam s.cfg (Spec.entry1 va s) 4 = true)
    (hpte : pte = Spec.word4 (interleave s).mem (Spec.entry1 va s).toNat) (hm : effPriv ty s ≠ .machine)
    (hi : ¬ Spec.Invalid pte) (hl : Spec.Leaf pte)
    (h : ¬ Spec.Allowed pte ty s ∨ pte.extractLsb' 10 10 ≠ 0#10) :
    walk va ty (effPriv ty s) s = .raise (Spec.pageFaultOf ty) va (interleave s) := by
  rw [walk, level1Addr_eq_entry1, pteRead_of_inRam hr, ← hpte, Access.andThen, if_neg (mt (pteInvalid_iff pte).mp hi),
    if_pos ((pteLeaf_iff pte).mpr hl), ← pageFault_eq]
  have hp := permitted_iff (pte := pte) (t := interleave s) hm (by simp)
  rcases h with ha | hz
  · simp [Bool.eq_false_iff.mpr (mt hp.mp ha)]
  · simp [ptePpn0, hz]

theorem walk_superpage (hr : inRam s.cfg (Spec.entry1 va s) 4 = true)
    (hpte : pte = Spec.word4 (interleave s).mem (Spec.entry1 va s).toNat) (hm : effPriv ty s ≠ .machine)
    (hi : ¬ Spec.Invalid pte) (hl : Spec.Leaf pte) (ha : Spec.Allowed pte ty s) (hz : pte.extractLsb' 10 10 = 0#10) :
    walk va ty (effPriv ty s) s =
      .ok (BitVec.ofNat 34 ((pte.extractLsb' 20 12).toNat * 2 ^ 22 + va.toNat % 2 ^ 22))
        (updateAD (Spec.entry1 va s) pte ty (interleave s)) := by
  rw [walk, level1Addr_eq_entry1, pteRead_of_inRam hr, ← hpte, Access.andThen, if_neg (mt (pteInvalid_iff pte).mp hi),
    if_pos ((pteLeaf_iff pte).mpr hl), ← superpageAddr_eq]
  have hp := permitted_iff (pte := pte) (t := interleave s) hm (by simp)
  simp [hp.mpr ha, ptePpn0, hz]

/-! ## The translation around the walk (R120, R131) -/

theorem translate_of_walks (h : Spec.Walks va ty s) : translate va ty s =
    (walk va ty (effPriv ty s) s).andThen fun pa t => .ok pa (tlbFill va ty pa t) := by
  obtain ⟨hsatp, hm, hmiss⟩ := h
  simp [Machine.translate, satpMode, hsatp, hm, hmiss]

end

/-- The update of a leaf is one memory event, made only if a needed bit is missing (R128). -/
theorem updateAD_eq (a : PhysAddr) (pte : Word) (ty : AccessType) (s : State) :
    updateAD a pte ty s = if Spec.needsUpdate pte ty then orAD a ty (interleave s) else s := by
  rw [updateAD]
  cases h : Spec.needsUpdate pte ty with
  | false => rw [if_pos ((needsUpdate_eq_false_iff pte ty).mp h)]; rfl
  | true => rw [if_neg (mt (needsUpdate_eq_false_iff pte ty).mpr (by simp [h]))]; rfl

theorem tlbFill_tlb (va : Word) (ty : AccessType) (pa : PhysAddr) (s : State) : (tlbFill va ty pa s).tlb =
    if isRamPage s.cfg pa then
      sparseSet ((va.extractLsb' 12 20).toNat &&& (s.cfg.tlbN - 1))
        { vpn := va.extractLsb' 12 20, perm := ⟨decide (ty = .fetch), decide (ty = .load), decide (ty = .store)⟩,
          ppn := pa.extractLsb' 12 20 } s.tlb
    else s.tlb := by
  have hperm : Perm.only ty = ⟨decide (ty = .fetch), decide (ty = .load), decide (ty = .store)⟩ := by cases ty <;> rfl
  rw [← hperm, tlbFill]
  split <;> rfl

/-- What a walk leaves once it has updated its leaf and filled the TLB. -/
theorem walked_tlbFill {s : State} (h : s.mem.wf = true) (va : Word) (ty : AccessType) (a : PhysAddr) (pte : Word)
    (pa : PhysAddr) : Spec.Walked va ty a pte pa s (tlbFill va ty pa (updateAD a pte ty s)) := by
  have hpriv := (updateAD_private a pte ty s).trans (tlbFill_private va ty pa _)
  have htlb := tlbFill_tlb va ty pa (updateAD a pte ty s)
  rw [updateAD_cfg, updateAD_tlb] at htlb
  refine ⟨fun b => ?_, htlb, hpriv.sameHart, ?_, hpriv.sameRegs, hpriv.pc, ?_⟩
  · rw [tlbFill_mem, updateAD_eq]
    cases Spec.needsUpdate pte ty with
    | false => simp
    | true => simp [readByte_orAD a ty (interleave_mem_wf h)]
  · rw [updateAD_eq]
    constructor <;> cases Spec.needsUpdate pte ty <;> simp
  · rw [updateAD_eq]
    cases Spec.needsUpdate pte ty <;> simp

/-- A translation that succeeds changes nothing (bare, or a TLB hit), or it walked: to the leaf that is the level-1
entry, or to the one the level-1 entry points to. -/
theorem translate_ok_walked {va : Word} {ty : AccessType} {s t : State} {pa : PhysAddr} (hwf : s.mem.wf = true)
    (h : Machine.translate va ty s = .ok pa t) :
    let s1 := interleave s
    let pte1 := Spec.word4 s1.mem (Spec.entry1 va s).toNat
    t = s ∨ (Spec.Leaf pte1 ∧ inRam s.cfg (Spec.entry1 va s) 4 = true ∧
        Spec.Walked va ty (Spec.entry1 va s) pte1 pa s1 t) ∨
      (¬ Spec.Leaf pte1 ∧ inRam s.cfg (Spec.entry0 pte1 va) 4 = true ∧
        ∃ pte0, Spec.Walked va ty (Spec.entry0 pte1 va) pte0 pa (interleave s1) t) := by
  have hwf1 := interleave_mem_wf hwf
  rcases translate_ok h with rfl | ⟨u, hw, rfl⟩
  · exact .inl rfl
  · right
    have hleaf := walk_ok hw
    simp only [level1Addr_eq_entry1, readBytes_word, level0Addr_eq_entry0] at hleaf
    obtain ⟨hr1, -, ⟨hl, -, -, -, rfl⟩ | ⟨hl, hr0, -, -, -, -, rfl⟩⟩ := hleaf
    · exact .inl ⟨(pteLeaf_iff _).mp hl, hr1, walked_tlbFill hwf1 ..⟩
    · exact .inr ⟨mt (pteLeaf_iff _).mpr (by simp [hl]), hr0, _, walked_tlbFill (interleave_mem_wf hwf1) ..⟩

end Sys2Proof.Machine
end

section
/-! What a translation does, obligation by obligation. -/

namespace Sys2Proof.Machine

theorem privOfCode_code_of_ne_two {c : BitVec 2} (h : c ≠ 2#2) : (privOfCode c).code = c := by
  revert c; decide

/-- Settles O52: without a walk the address is the given one, or the cached page's, and nothing changes. -/
theorem translationWithoutWalk : Obligations.TranslationWithoutWalk := by
  intro s va ty
  refine ⟨rfl, fun hty hmprv => ?_, fun hty hmprv hmpp => ?_, translate_bare, fun e hsatp hm hget hvpn hperm => ?_⟩
  · cases ty with
    | fetch => exact absurd rfl hty
    | load | store => exact if_neg (Bool.eq_false_iff.mp hmprv)
  · have heff : effPriv ty s = privOfCode (statusMPP s.csr.status) := by
      cases ty with
      | fetch => exact absurd rfl hty
      | load | store => exact if_pos hmprv
    rw [heff]
    exact privOfCode_code_of_ne_two hmpp
  · have hhas : e.perm.has ty = true := by rw [← hperm]; cases ty <;> rfl
    have hhit : tlbLookup va ty s = some e.ppn := by
      simp only [tlbLookup, tlbIndex, vpnOf, hget]
      exact if_pos ⟨hvpn, hhas⟩
    simp [Machine.translate, satpMode, hsatp, hm, hhit]

/-- Settles O53: the level-1 entry is a pointer, the level-0 entry the leaf. -/
theorem walkFourKiB : Obligations.WalkFourKiB := by
  intro s va ty hwf hwalks s1 pte1 a0 s2 pte0 hr1 hi1 hl1 hr0 hi0 hl0 ha0 pa
  have hwf2 : s2.mem.wf = true := interleave_mem_wf (interleave_mem_wf hwf)
  have hleaf := walkLevel0_leaf (va := va) (s := s1) (by simpa [s1] using hr0) rfl hwalks.2.1 (by simp [s1]) hi0 hl0 ha0
  refine ⟨_, ?_, walked_tlbFill hwf2 va ty a0 pte0 pa⟩
  rw [translate_of_walks hwalks, walk_pointer hr1 rfl hi1 hl1, hleaf]
  rfl

/-- Settles O54: the level-1 entry is the leaf. -/
theorem walkSuperpage : Obligations.WalkSuperpage := by
  intro s va ty hwf hwalks s1 pte hr1 hi hl ha pa
  refine ⟨fun hz => ⟨_, ?_, walked_tlbFill (interleave_mem_wf hwf) va ty (Spec.entry1 va s) pte pa⟩, fun hz => ?_⟩
  · rw [translate_of_walks hwalks, walk_superpage hr1 rfl hwalks.2.1 hi hl ha hz]
    rfl
  · rw [translate_of_walks hwalks, walk_superpage_fault hr1 rfl hwalks.2.1 hi hl (.inr hz)]
    rfl

/-- Settles O55: each entry that ends the walk, in the order in which the walk looks at it. -/
theorem walkFaults : Obligations.WalkFaults := by
  intro s va ty hwalks a1 s1 pte1 a0 s2 pte0 accessFault pageFault
  have hm := hwalks.2.1
  simp only [accessFault, pageFault, translate_of_walks hwalks]
  refine ⟨fun hr1 => ?_, fun hr1 hi1 => ?_, fun hr1 hi1 hl1 h => ?_, fun hr1 hi1 hl1 => ⟨fun hr0 => ?_, fun hr0 h => ?_⟩⟩
  · rw [walk_of_not_inRam hr1]; rfl
  · rw [walk_invalid hr1 rfl hi1]; rfl
  · rw [walk_superpage_fault hr1 rfl hm hi1 hl1 h]; rfl
  · rw [walk_pointer hr1 rfl hi1 hl1, walkLevel0_of_not_inRam (by simpa [s1] using hr0)]; rfl
  · rw [walk_pointer hr1 rfl hi1 hl1, walkLevel0_fault (by simpa [s1] using hr0) rfl hm (by simp [s1]) h]; rfl

theorem walked_tlb_other {va : Word} {ty : AccessType} {a : PhysAddr} {pte : Word} {pa : PhysAddr} {s t : State}
    (h : Spec.Walked va ty a pte pa s t) :
    ∀ i, i ≠ ((va.extractLsb' 12 20).toNat &&& (s.cfg.tlbN - 1)) → sparseGet i t.tlb = sparseGet i s.tlb := by
  obtain ⟨-, htlb, -⟩ := h
  intro i hi
  rw [htlb]
  split
  · exact sparseGet_set_other hi ..
  · rfl

/-- Where no other agent acts, a walk changes no shared field, and at most the first byte of its leaf in memory. -/
theorem walked_alone {va : Word} {ty : AccessType} {a : PhysAddr} {pte : Word} {pa : PhysAddr} {s t : State}
    (h : Spec.Walked va ty a pte pa s t) (hs : s.interleaved = []) :
    Spec.SameShared s t ∧ t.rsv = s.rsv ∧ (Spec.SameBytes s t ∨
      (readByte t.mem a.toNat = readByte s.mem a.toNat ||| (if ty = .store then 0xC0#8 else 0x40#8) ∧
        Spec.SameBytesOutside a.toNat 1 s t)) := by
  have hnone : (if Spec.needsUpdate pte ty then interleave s else s) = s := by rw [interleave_of_nil hs, ite_self]
  obtain ⟨hbytes, -, -, hshared, -, -, hrsv⟩ := h
  rw [hnone] at hbytes hshared hrsv
  refine ⟨hshared, hrsv, ?_⟩
  cases hu : Spec.needsUpdate pte ty with
  | false => exact .inl fun b => by rw [hbytes b, if_neg (by simp [hu])]
  | true =>
    refine .inr ⟨by rw [hbytes a.toNat, if_pos ⟨rfl, hu⟩], fun b hb => ?_⟩
    rw [hbytes b, if_neg (by omega)]

/-- Settles O56: a success is a walk or nothing at all; a raise has made at most the reads of the walk. -/
theorem translationFrame : Obligations.TranslationFrame := by
  intro s va ty hwf pte1
  refine ⟨fun pa t h => ?_, fun e tv t h => ?_⟩
  · have hpriv := translate_private h
    refine ⟨hpriv.sameHart, hpriv.sameRegs, hpriv.pc, ?_, fun hs => ?_⟩
    · rcases translate_ok_walked hwf h with rfl | ⟨-, -, hw⟩ | ⟨-, -, pte0, hw⟩
      · exact fun _ _ => rfl
      · simpa using walked_tlb_other hw
      · simpa using walked_tlb_other hw
    · have hcases := translate_ok_walked hwf h
      simp only [interleave_of_nil hs] at hcases
      rcases hcases with rfl | ⟨hl, hr, hw⟩ | ⟨hl, hr, pte0, hw⟩
      · exact ⟨by constructor <;> rfl, rfl, .inl fun _ => rfl⟩
      · obtain ⟨hshared, hrsv, hbytes⟩ := walked_alone hw hs
        exact ⟨hshared, hrsv, hbytes.imp_right fun hb => ⟨_, .inl ⟨hl, rfl⟩, hr, hb⟩⟩
      · obtain ⟨hshared, hrsv, hbytes⟩ := walked_alone hw hs
        exact ⟨hshared, hrsv, hbytes.imp_right fun hb => ⟨_, .inr ⟨hl, rfl⟩, hr, hb⟩⟩
  · obtain ⟨hstate, rfl, he⟩ := translate_raise h
    have hpriv := translate_raise_private h
    rw [pageFault_eq, accessFault_eq] at he
    refine ⟨rfl, he, hpriv.sameHart, hpriv.sameRegs, hpriv.pc, ?_, fun hs => ?_⟩
    · rcases hstate with rfl | rfl | rfl <;> simp
    · simpa [interleave_of_nil hs] using hstate

end Sys2Proof.Machine
end

section
/-! The data accesses of the instructions: what a load, a store or an atomic is in terms of one access, when the access
raises, and what it does where it reaches a device (R104, R110 to R113, R270, R325). -/

namespace Sys2Proof.Machine

/-! ## The instructions that access data -/

theorem exec_of_loadForm {i : Instr} {s : State} {rd : Reg} {va : Word} {w : Width} {value : Word → Word} {len : Word}
    (h : Spec.loadForm i s = some (rd, va, w, value, len)) :
    exec i s = (memRead va w s).finish fun v t => advance len (writeReg rd (value v) t) := by
  cases i with
  | lb | lbu | lh | lhu | lw | cLw | cLwsp => cases h; rfl
  | _ => cases h

theorem exec_of_storeForm {i : Instr} {s : State} {va : Word} {w : Width} {v len : Word}
    (h : Spec.storeForm i s = some (va, w, v, len)) :
    ∃ src, v = unsignedLoad w src ∧ exec i s = storeTo va w src len s := by
  cases i with
  | sb rs2 | sh rs2 | sw rs2 | cSw rs2 | cSwsp rs2 => cases h; exact ⟨readReg s rs2, rfl, rfl⟩
  | _ => cases h

/-- The exception of an access whose address is not a multiple of its size (R104). -/
def misaligned : AccessType → Exception
  | .store => .storeAddressMisaligned
  | .fetch | .load => .loadAddressMisaligned

theorem code_misaligned {ty : AccessType} (h : ty ≠ .fetch) : (misaligned ty).code = if ty = .load then 4 else 6 := by
  cases ty with
  | fetch => exact absurd rfl h
  | load | store => rfl

theorem code_accessFault {ty : AccessType} (h : ty ≠ .fetch) : (accessFault ty).code = if ty = .load then 5 else 7 := by
  cases ty with
  | fetch => exact absurd rfl h
  | load | store => rfl

/-- What an instruction that accesses data is: a load, a store, or an atomic. -/
inductive DataAccess (i : Instr) (s : State) : AccessType → Word → Nat → Prop
  | load {rd : Reg} {va : Word} {w : Width} {value : Word → Word} {len : Word} {n : Nat} :
      Spec.isAtomic i = false → Spec.loadForm i s = some (rd, va, w, value, len) → n = w.bytes →
      DataAccess i s .load va n
  | store {va : Word} {w : Width} {v len : Word} {n : Nat} :
      Spec.isAtomic i = false → Spec.storeForm i s = some (va, w, v, len) → n = w.bytes → DataAccess i s .store va n
  | atomic {ty : AccessType} {va : Word} {commit : PhysAddr → State → State} :
      Spec.isAtomic i = true → ty ≠ .fetch → exec i s = (atomicAddr va ty (misaligned ty) s).finish commit →
      DataAccess i s ty va 4

theorem dataAccess_of_memForm {i : Instr} {s : State} {ty : AccessType} {va : Word} {n : Nat}
    (h : Spec.memForm i s = some (ty, va, n)) : DataAccess i s ty va n := by
  cases i with
  | lb | lbu | lh | lhu | lw | cLw | cLwsp => cases h; exact .load rfl rfl rfl
  | sb | sh | sw | cSw | cSwsp => cases h; exact .store rfl rfl rfl
  | lrW | scW | amoswapW | amoaddW | amoxorW | amoandW | amoorW | amominW | amomaxW | amominuW | amomaxuW =>
    cases h; exact .atomic rfl (by decide) rfl
  | _ => cases h

/-! ## Alignment (R104) -/

theorem aligned_iff (va : Word) (w : Width) : aligned va w = true ↔ va.toNat % w.bytes = 0 := by
  have hlow (n : Nat) : va.extractLsb' 0 n = 0#n ↔ va.toNat % 2 ^ n = 0 := by
    rw [← BitVec.toNat_inj, toNat_extractLsb'_zero, BitVec.toNat_ofNat, Nat.zero_mod]
  cases w with
  | byte => simp [aligned, Width.bytes, Nat.mod_one]
  | half => simpa [aligned, Width.bytes] using hlow 1
  | word => simpa [aligned, Width.bytes] using hlow 2

/-! ## An access that raises -/

section
variable {va : Word} {w : Width} {s s1 t : State} {pa : PhysAddr}

theorem memRead_misaligned (h : va.toNat % w.bytes ≠ 0) : memRead va w s = .raise .loadAddressMisaligned va s := by
  rw [memRead, if_pos (by simpa using mt (aligned_iff va w).mp h)]

theorem memWrite_misaligned (h : va.toNat % w.bytes ≠ 0) (v : Word) :
    memWrite va w v s = .raise .storeAddressMisaligned va s := by
  rw [memWrite, if_pos (by simpa using mt (aligned_iff va w).mp h)]

theorem atomicAddr_misaligned (h : va.toNat % 4 ≠ 0) (ty : AccessType) (e : Exception) :
    atomicAddr va ty e s = .raise e va s := by
  rw [atomicAddr, if_pos (by simpa using mt (aligned_iff va .word).mp h)]

theorem memRead_of_physRead {v : Word} (ha : va.toNat % w.bytes = 0) (ht : Machine.translate va .load s = .ok pa s1)
    (hp : physRead pa w s1 = (some v, t)) : memRead va w s = .ok v t := by
  simp [memRead, (aligned_iff va w).mpr ha, ht, Access.andThen, hp]

theorem memRead_of_physRead_none (ha : va.toNat % w.bytes = 0) (ht : Machine.translate va .load s = .ok pa s1)
    (hp : physRead pa w s1 = (none, t)) : memRead va w s = .raise .loadAccessFault va t := by
  simp [memRead, (aligned_iff va w).mpr ha, ht, Access.andThen, hp]

theorem memWrite_of_physWrite {v : Word} (ha : va.toNat % w.bytes = 0) (ht : Machine.translate va .store s = .ok pa s1)
    (hp : physWrite pa w v s1 = (true, t)) : memWrite va w v s = .ok () t := by
  simp [memWrite, (aligned_iff va w).mpr ha, ht, Access.andThen, hp]

theorem memWrite_of_physWrite_false {v : Word} (ha : va.toNat % w.bytes = 0)
    (ht : Machine.translate va .store s = .ok pa s1) (hp : physWrite pa w v s1 = (false, t)) :
    memWrite va w v s = .raise .storeAccessFault va t := by
  simp [memWrite, (aligned_iff va w).mpr ha, ht, Access.andThen, hp]

theorem atomicAddr_of_not_inRam {ty : AccessType} (ha : va.toNat % 4 = 0) (ht : Machine.translate va ty s = .ok pa s1)
    (hr : inRam s1.cfg pa 4 = false) (e : Exception) : atomicAddr va ty e s = .raise (accessFault ty) va s1 := by
  simp [atomicAddr, (aligned_iff va .word).mpr ha, ht, Access.andThen, hr]

theorem physRead_unmapped (h : Spec.Unmapped pa w.bytes s) : physRead pa w s = (none, s) := by
  unfold physRead
  rcases h with h | ⟨hr, hl⟩
  · rw [if_pos h]
  · simp [hr, hl]

theorem physWrite_unmapped (h : Spec.Unmapped pa w.bytes s) (v : Word) : physWrite pa w v s = (false, s) := by
  unfold physWrite
  rcases h with h | ⟨hr, hl⟩
  · rw [if_pos h]
  · simp [hr, hl]

/-- The exception of a part of an instruction is the instruction's own trap (R12). -/
theorem finish_traps {α : Type} {r : Access α} {e : Exception} {tv : Word} (h : r = .raise e tv t) (hc : SameCore s t)
    (commit : α → State → State) : Spec.Traps (r.finish commit) e.code tv s t := by
  rw [h]; exact raiseException_traps hc e tv

end

/-- Settles O29: the check of alignment comes first in each of the three kinds of access. -/
theorem misalignedAccessTraps : Obligations.MisalignedAccessTraps := by
  intro i s ty va n hform hn
  cases dataAccess_of_memForm hform with
  | load _ hload hw =>
    subst hw
    rw [exec_of_loadForm hload]
    exact finish_traps (memRead_misaligned hn) (.refl s) _
  | store _ hstore hw =>
    subst hw
    obtain ⟨src, -, hexec⟩ := exec_of_storeForm hstore
    rw [hexec]
    exact finish_traps (memWrite_misaligned hn src) (.refl s) _
  | atomic _ hty hexec =>
    rw [hexec, ← code_misaligned hty]
    exact finish_traps (atomicAddr_misaligned hn ty _) (.refl s) _

/-- Settles O31: the translated address reaches no memory, and the fault is raised on the translated state. -/
theorem unmappedAccessTraps : Obligations.UnmappedAccessTraps := by
  intro i s ty va n pa s1 hform hn ht hmem
  have hpriv := translate_private ht
  rw [Spec.Unmapped, ← hpriv.cfg] at hmem
  cases dataAccess_of_memForm hform with
  | load hi hload hw =>
    subst hw
    rw [if_neg (by simp [hi])] at hmem
    rw [exec_of_loadForm hload]
    exact finish_traps (memRead_of_physRead_none hn ht (physRead_unmapped hmem)) hpriv.core _
  | store hi hstore hw =>
    subst hw
    rw [if_neg (by simp [hi])] at hmem
    obtain ⟨src, -, hexec⟩ := exec_of_storeForm hstore
    rw [hexec]
    exact finish_traps (memWrite_of_physWrite_false hn ht (physWrite_unmapped hmem src)) hpriv.core _
  | atomic hi hty hexec =>
    rw [if_pos hi] at hmem
    rw [hexec, ← code_accessFault hty]
    exact finish_traps (atomicAddr_of_not_inRam hn ht hmem _) hpriv.core _

/-! ## An access that reaches a device (R110 to R113) -/

section
variable {pa : PhysAddr} {w : Width} {s : State} {r : Config.Region}

theorem physRead_device (hlt : pa.toNat < 2 ^ 32) (hr : inRam s.cfg pa w.bytes = false)
    (hl : mmioLookup s.cfg pa = some r) : physRead pa w s =
      (if (mmioAnswer (mmioAccessOf r pa w .read) (interleave s)).ok then
          some (unsignedLoad w (mmioAnswer (mmioAccessOf r pa w .read) (interleave s)).data)
        else none, mmioCall (mmioAccessOf r pa w .read) (interleave s)) := by
  rw [physRead, if_neg (Nat.not_le.mpr hlt)]
  simp [hr, hl]

theorem physWrite_device (hlt : pa.toNat < 2 ^ 32) (hr : inRam s.cfg pa w.bytes = false)
    (hl : mmioLookup s.cfg pa = some r) (v : Word) : physWrite pa w v s =
      ((mmioAnswer (mmioAccessOf r pa w (.write (unsignedLoad w v))) (interleave s)).ok,
        mmioCall (mmioAccessOf r pa w (.write (unsignedLoad w v))) (interleave s)) := by
  rw [physWrite, if_neg (Nat.not_le.mpr hlt)]
  simp [hr, hl]

end

/-- `s3` is what one handler call leaves that is made at the memory event of an access, after the translation of `s` to
`s1`, and `ans` is the handler's answer (R113). -/
structure DeviceCall (acc : Config.MmioAccess) (s s1 : State) (ans : Config.MmioAnswer) (s3 : State) : Prop where
  answer : mmioAnswer acc (interleave s1) = ans
  call : mmioCall acc (interleave s1) = s3
  core : SameCore s s3
  tlb : s3.tlb = s1.tlb
  rsv : s3.rsv = (interleave s1).rsv
  mmioLog : s3.mmioLog = acc :: s.mmioLog
  devices : s3.devices = ans.devices

/-- The call in terms of the state before the translation. -/
theorem deviceCall_of_private {s s1 : State} (h : SamePrivate s s1) (acc : Config.MmioAccess) :
    let s2 := interleave s1
    let ans := Config.mmioHandler
      { hart := s.csr.hartid, devices := s2.devices, time := s2.time, timecmp := s2.timecmp, ram := s2.mem } acc
    DeviceCall acc s s1 ans
      (ans.actions.foldl deviceAct { s2 with devices := ans.devices, mmioLog := acc :: s.mmioLog }) := by
  intro s2 ans
  have hans : mmioAnswer acc s2 = ans := by simp only [mmioAnswer, ans, s2, interleave_csr, h.csr]
  have hcall : mmioCall acc s2 =
      ans.actions.foldl deviceAct { s2 with devices := ans.devices, mmioLog := acc :: s.mmioLog } := by
    simp only [mmioCall, hans, s2, interleave_mmioLog, h.mmioLog]
  obtain ⟨-, -, -, -, htlb, hrsv, -, -, -, -, -, hdevices, hlog⟩ := mmioCall_frame acc s2
  have hcore := (h.core.trans (interleave_private s1).core).trans (mmioCall_core acc s2)
  rw [← hcall]
  exact ⟨hans, rfl, hcore, by rw [htlb, interleave_tlb], hrsv, by rw [hlog, interleave_mmioLog, h.mmioLog],
    hdevices.trans (congrArg _ hans)⟩

theorem loadForm_value_unsignedLoad {i : Instr} {s : State} {rd : Reg} {va : Word} {w : Width} {value : Word → Word}
    {len : Word} (h : Spec.loadForm i s = some (rd, va, w, value, len)) (d : Word) :
    value (unsignedLoad w d) = value d := by
  have hlow {n : Nat} (hn : n ≤ 32) : ((d.extractLsb' 0 n).setWidth 32).extractLsb' 0 n = d.extractLsb' 0 n := by
    apply BitVec.eq_of_getLsbD_eq
    intro j hj
    simp [hj, show j < 32 by omega]
  cases i with
  | lb | lbu | lh | lhu => cases h; simp [unsignedLoad, zext, hlow]
  | lw | cLw | cLwsp => cases h; rfl
  | _ => cases h

/-! ## The commit of an instruction that writes a register (R10) -/

theorem wrote_advance_writeReg (rd : Reg) (v len : Word) (s : State) :
    Spec.Wrote rd v s (advance len (writeReg rd v s)) := fun r => readReg_writeReg rd r v s

theorem advance_writeReg_frame (rd : Reg) (v len : Word) (s : State) :
    Spec.OnlyRegsAndPc s (advance len (writeReg rd v s)) := by
  refine ⟨⟨?_, ?_⟩, by simp, by simp, fun a => by simp⟩ <;> constructor <;> simp

/-- The same where no register is written. -/
theorem advance_frame (len : Word) (s : State) : Spec.OnlyRegsAndPc s (advance len s) :=
  advance_writeReg_frame 0#5 0#32 len s

/-- The trap of an access leaves the record of the handler calls and the devices' state. -/
theorem trapEntry_devices {p : Priv} {c tv ev : Word} {s t : State} (h : Spec.TrapEntry p c tv ev s t) :
    t.mmioLog = s.mmioLog ∧ t.devices = s.devices := by
  obtain ⟨-, -, -, -, -, -, -, hdevices, hlog, -, -⟩ := h.rest
  exact ⟨hlog, hdevices⟩

/-! ## A load or a store around its physical access (R11, R270) -/

section
variable {i : Instr} {s s1 s3 : State} {va : Word} {w : Width} {len : Word} {pa : PhysAddr} {ok : Bool}

/-- A load whose physical access answers `data` or fails, in the state `s3`. -/
theorem load_of_physRead {rd : Reg} {value : Word → Word} {data : Word}
    (hload : Spec.loadForm i s = some (rd, va, w, value, len)) (hn : va.toNat % w.bytes = 0)
    (ht : Machine.translate va .load s = .ok pa s1)
    (hphys : physRead pa w s1 = (if ok then some (unsignedLoad w data) else none, s3)) (hcore : SameCore s s3) :
    ∃ t, exec i s = .next t ∧ t.mmioLog = s3.mmioLog ∧ t.devices = s3.devices ∧
      if ok then Spec.Wrote rd (value data) s t ∧ t.pc = s.pc + len ∧ Spec.OnlyRegsAndPc s3 t
      else Spec.TrapEntry (Spec.exceptionLevel 5 s) 5#32 va s.pc s3 t := by
  rw [exec_of_loadForm hload]
  cases ok with
  | true =>
    rw [memRead_of_physRead hn ht hphys, Access.finish, loadForm_value_unsignedLoad hload]
    exact ⟨_, rfl, by simp, by simp, fun r => by rw [wrote_advance_writeReg, readReg_congr hcore.regs],
      by simp [hcore.pc], advance_writeReg_frame ..⟩
  | false =>
    obtain ⟨t, hexec, htrap⟩ := finish_traps (memRead_of_physRead_none hn ht hphys) hcore _
    obtain ⟨hlog, hdevices⟩ := trapEntry_devices htrap
    exact ⟨t, hexec, hlog, hdevices, htrap⟩

/-- The same of a store of `src`. -/
theorem store_of_physWrite {src : Word} (hn : va.toNat % w.bytes = 0) (ht : Machine.translate va .store s = .ok pa s1)
    (hphys : physWrite pa w src s1 = (ok, s3)) (hcore : SameCore s s3) :
    ∃ t, storeTo va w src len s = .next t ∧ t.mmioLog = s3.mmioLog ∧ t.devices = s3.devices ∧ Spec.SameRegs s t ∧
      if ok then t.pc = s.pc + len ∧ Spec.OnlyRegsAndPc s3 t
      else Spec.TrapEntry (Spec.exceptionLevel 7 s) 7#32 va s.pc s3 t := by
  have hregs : Spec.SameRegs s s3 := readReg_congr hcore.regs
  rw [storeTo]
  cases ok with
  | true =>
    rw [memWrite_of_physWrite hn ht hphys, Access.finish]
    exact ⟨_, rfl, rfl, rfl, hregs, by simp [hcore.pc], advance_frame ..⟩
  | false =>
    obtain ⟨t, hexec, htrap⟩ := finish_traps (memWrite_of_physWrite_false hn ht hphys) hcore _
    obtain ⟨hlog, hdevices⟩ := trapEntry_devices htrap
    exact ⟨t, hexec, hlog, hdevices, fun r => (htrap.regs r).trans (hregs r), htrap⟩

end

/-- Settles O32: the handler's answer decides between the load's commit and its access fault. -/
theorem deviceLoads : Obligations.DeviceLoads := by
  intro i s rd va w value len pa s1 r hload hn ht hlt hr hl acc s2 ans s3
  have hpriv := translate_private ht
  have hdevice : DeviceCall acc s s1 ans s3 := deviceCall_of_private hpriv acc
  obtain ⟨hans, hcall, hcore, htlb, hrsv, hlog, hdevices⟩ := hdevice
  have hphys : physRead pa w s1 = (if ans.ok then some (unsignedLoad w ans.data) else none, s3) := by
    rw [← hans, ← hcall]
    exact physRead_device hlt (hpriv.cfg ▸ hr) (hpriv.cfg ▸ hl)
  obtain ⟨t, hexec, hlog', hdevices', heffect⟩ := load_of_physRead hload hn ht hphys hcore
  refine ⟨t, hexec, hlog'.trans hlog, hdevices'.trans hdevices, ?_⟩
  split at heffect
  next hok =>
    obtain ⟨hwrote, hpc, ⟨hhart, hshared⟩, htlb', hrsv', hbytes⟩ := heffect
    rw [if_pos hok]
    exact ⟨hwrote, hpc, hhart.priv.trans hcore.priv, hhart.csr.trans hcore.csr, htlb'.trans htlb, hrsv'.trans hrsv, hhart,
      hshared, hbytes⟩
  next hok =>
    rw [if_neg hok]
    exact ⟨hcore.csr, hcore.priv, readReg_congr hcore.regs, heffect⟩

/-- Settles O33: the same for a store, which commits no register. -/
theorem deviceStores : Obligations.DeviceStores := by
  intro i s va w v len pa s1 r hstore hn ht hlt hr hl acc s2 ans s3
  have hpriv := translate_private ht
  have hdevice : DeviceCall acc s s1 ans s3 := deviceCall_of_private hpriv acc
  obtain ⟨hans, hcall, hcore, htlb, hrsv, hlog, hdevices⟩ := hdevice
  obtain ⟨src, hv, hi⟩ := exec_of_storeForm hstore
  have hphys : physWrite pa w src s1 = (ans.ok, s3) := by
    rw [← hans, ← hcall]
    simp only [acc, hv]
    exact physWrite_device hlt (hpriv.cfg ▸ hr) (hpriv.cfg ▸ hl) src
  obtain ⟨t, hexec, hlog', hdevices', hregs, heffect⟩ := store_of_physWrite hn ht hphys hcore
  refine ⟨t, hi.trans hexec, hlog'.trans hlog, hdevices'.trans hdevices, hregs, ?_⟩
  split at heffect
  next hok =>
    obtain ⟨hpc, ⟨hhart, hshared⟩, htlb', hrsv', hbytes⟩ := heffect
    rw [if_pos hok]
    exact ⟨hpc, hhart.priv.trans hcore.priv, hhart.csr.trans hcore.csr, htlb'.trans htlb, hrsv'.trans hrsv, hhart,
      hshared, hbytes⟩
  next hok =>
    rw [if_neg hok]
    exact ⟨hcore.csr, hcore.priv, heffect⟩

end Sys2Proof.Machine
end

section
/-! What untranslated accesses do where no device and no other agent acts: reads leave the state, and a word stored is
the word loaded next (R100, R110, R111, R120). -/

namespace Sys2Proof.Machine

/-! ## Reads that leave the state -/

/-- No device is installed and no other agent acts inside the instruction. -/
structure Alone (s : State) : Prop where
  regions : mmioRegions s.cfg = []
  interleaved : s.interleaved = []

theorem physRead_alone {s : State} (h : Alone s) (pa : PhysAddr) (w : Width) : (physRead pa w s).2 = s := by
  have hlookup : mmioLookup s.cfg pa = none := by rw [mmioLookup, h.regions]; rfl
  unfold physRead
  split
  · rfl
  · split
    · exact interleave_of_nil h.interleaved
    · rw [hlookup]

theorem memRead_alone {s : State} (h : Alone s) (hb : satpMode s = false ∨ effPriv .load s = .machine) (va : Word)
    (w : Width) : (memRead va w s).state = s := by
  unfold memRead
  split
  · rfl
  · rw [translate_bare hb, Access.andThen]
    have hstate := physRead_alone h (va.zeroExtend 34) w
    split <;> simpa [*, Access.state] using hstate

theorem atomicAddr_alone {s : State} (h : Alone s) (hb : satpMode s = false ∨ effPriv .load s = .machine) (va : Word)
    (e : Exception) : (atomicAddr va .load e s).state = s := by
  unfold atomicAddr
  split
  · rfl
  · rw [translate_bare hb, Access.andThen]
    split
    · exact interleave_of_nil h.interleaved
    · rfl

/-! ## Instructions that leave memory -/

/-- If the outcome is a next state, its memory is that of `s`. -/
def KeepsMem (s : State) (o : Host.Outcome State Fault Refusal) : Prop := ∀ t, o = .next t → t.mem = s.mem

section
variable {s : State}

theorem keepsMem_next {t : State} (h : t.mem = s.mem) : KeepsMem s (.next t) := by
  rintro u ⟨⟩; exact h

theorem writeBack_keepsMem {rd : Reg} {v len : Word} : KeepsMem s (writeBack rd v len s) := keepsMem_next (by simp)

theorem jumpTo_keepsMem {rd : Reg} {target len : Word} : KeepsMem s (jumpTo rd target len s) := keepsMem_next (by simp)

theorem branchIf_keepsMem {c : Bool} {off len : Word} : KeepsMem s (branchIf c off len s) :=
  keepsMem_next (by split <;> simp)

theorem raise_keepsMem {e : Exception} {tv : Word} : KeepsMem s (.next (raiseException e tv s)) := keepsMem_next (by simp)

theorem advance_keepsMem {len : Word} : KeepsMem s (.next (advance len s)) := keepsMem_next rfl

theorem xRet_keepsMem {x : Priv} {insn : Word} : KeepsMem s (xRet x insn s) := by
  unfold xRet
  split <;> exact keepsMem_next (by simp)

theorem execSfenceVma_keepsMem {rs1 rs2 : Reg} : KeepsMem s (execSfenceVma rs1 rs2 s) := by
  unfold execSfenceVma
  split <;> exact keepsMem_next (by simp)

theorem execWfi_keepsMem : KeepsMem s (execWfi s) := by
  unfold execWfi
  dsimp only
  split
  · exact keepsMem_next (by simp [takeInterrupt])
  · exact keepsMem_next rfl

theorem csrInstruction_keepsMem {a : CsrAddr} {op : CsrOp} {src : Word} {rd : Reg} {insn : Word} :
    KeepsMem s (csrInstruction a op src rd insn s) := by
  rcases csrInstruction_next a op src rd insn s with ⟨-, h⟩ | ⟨row, -, h⟩
  · rw [h]; exact raise_keepsMem
  · rw [h]; exact keepsMem_next (by simp)

theorem finish_keepsMem {α : Type} {r : Access α} {commit : α → State → State} (hr : r.state = s)
    (hc : ∀ a t, (commit a t).mem = t.mem) : KeepsMem s (r.finish commit) := by
  subst hr
  cases r with
  | ok a t => exact keepsMem_next (hc a t)
  | raise e tv t => exact raise_keepsMem

end

/-- An instruction that stores nothing keeps memory where its own reads do. -/
theorem exec_keepsMem {i : Instr} {s : State} (hi : Spec.mayStore i = false) (h : Alone s)
    (hb : satpMode s = false ∨ effPriv .load s = .machine) : KeepsMem s (exec i s) := by
  cases i with
  | lui | auipc | addi | slti | sltiu | xori | ori | andi | slli | srli | srai | add | sub | sll | slt | sltu | xor | srl
  | sra | or | and | mul | mulh | mulhsu | mulhu | div | divu | rem | remu | cAddi4spn | cNop | cAddi | cLi | cAddi16sp
  | cLui | cSrli | cSrai | cAndi | cSub | cXor | cOr | cAnd | cSlli | cMv | cAdd => exact writeBack_keepsMem
  | jal | jalr | cJal | cJ | cJr | cJalr => exact jumpTo_keepsMem
  | beq | bne | blt | bge | bltu | bgeu | cBeqz | cBnez => exact branchIf_keepsMem
  | fence | fenceI => exact advance_keepsMem
  | ecall | ebreak | cIllegal | cEbreak => exact raise_keepsMem
  | uret => exact xRet_keepsMem (x := .user) (insn := (encode .uret).bits)
  | sret | mret => exact xRet_keepsMem
  | wfi => exact execWfi_keepsMem
  | sfenceVma => exact execSfenceVma_keepsMem
  | csrrw | csrrs | csrrc | csrrwi | csrrsi | csrrci => exact csrInstruction_keepsMem
  | lb | lh | lw | lbu | lhu | cLw | cLwsp => exact finish_keepsMem (memRead_alone h hb ..) fun _ _ => by simp
  | lrW => exact finish_keepsMem (atomicAddr_alone h hb ..) fun _ _ => by simp
  | sb | sh | sw | cSw | cSwsp | scW | amoswapW | amoaddW | amoxorW | amoandW | amoorW | amominW | amomaxW | amominuW
  | amomaxuW => cases hi

/-- Settles O9: no instruction but those that store writes memory itself, and here no one else does. -/
theorem onlyStoresWriteMemory : Obligations.OnlyStoresWriteMemory := by
  intro i s t hi hb hregions hinter hexec a
  rw [exec_keepsMem hi ⟨hregions, hinter⟩ hb t hexec]

/-! ## A word stored and loaded -/

theorem toNat_zeroExtend_phys (va : Word) : (va.zeroExtend 34).toNat = va.toNat :=
  BitVec.toNat_setWidth_of_le (by decide)

/-- Byte `k` of an aligned word lies `k` above it: the address does not wrap around. -/
theorem toNat_add_of_aligned {va : Word} {k : BitVec 12} (ha : va.toNat % 4 = 0) (hk : k.toNat < 4) :
    (va + k.zeroExtend 32).toNat = va.toNat + k.toNat := by
  have hk32 : (k.zeroExtend 32).toNat = k.toNat := BitVec.toNat_setWidth_of_le (by decide)
  have hva := va.isLt
  rw [BitVec.toNat_add, hk32]
  omega

theorem inRam_byte_of_word {p : Config.Params} {va : Word} {k : BitVec 12} (h : inRam p (va.zeroExtend 34) 4 = true)
    (ha : va.toNat % 4 = 0) (hk : k.toNat < 4) : inRam p ((va + k.zeroExtend 32).zeroExtend 34) 1 = true := by
  have haddr := toNat_add_of_aligned ha hk
  have hlt := (va + k.zeroExtend 32).isLt
  simp only [inRam, toNat_zeroExtend_phys, Bool.and_eq_true, decide_eq_true_eq] at h ⊢
  omega

theorem extractLsb'_byte_zeroExtend (b : Byte) : (b.zeroExtend 32).extractLsb' 0 8 = b := by
  apply BitVec.eq_of_getLsbD_eq
  intro j hj
  simp [hj, show j < 32 by omega]

/-- An offset that does not overflow its 12 bits is added as it is. -/
theorem signExtend_add {imm k : BitVec 12} (h : (imm + k).toInt = imm.toInt + k.toNat) :
    (imm + k).signExtend 32 = imm.signExtend 32 + k.zeroExtend 32 := by
  have hk : k.zeroExtend 32 = BitVec.ofInt 32 k.toNat := by
    rw [BitVec.ofInt_natCast, BitVec.ofNat_toNat]
  rw [hk, BitVec.signExtend, BitVec.signExtend, h, BitVec.ofInt_add]

/-- An untranslated load from RAM where no other agent acts. -/
theorem exec_load_bare {i : Instr} {s : State} {rd : Reg} {va : Word} {w : Width} {value : Word → Word} {len : Word}
    (hload : Spec.loadForm i s = some (rd, va, w, value, len)) (hb : satpMode s = false ∨ effPriv .load s = .machine)
    (hs : s.interleaved = []) (ha : va.toNat % w.bytes = 0) (hr : inRam s.cfg (va.zeroExtend 34) w.bytes = true) :
    exec i s = .next (advance len (writeReg rd (value (readBytes s.mem va.toNat w.bytes)) s)) := by
  rw [exec_of_loadForm hload, memRead_ram ((aligned_iff va w).mpr ha) (translate_bare hb) hr, interleave_of_nil hs,
    toNat_zeroExtend_phys]
  rfl

/-- Settles O28: the store leaves the word in RAM, and both loads find their bytes of it there. -/
theorem storeThenLoad : Obligations.StoreThenLoad := by
  intro s rs2 rs1 rd imm k hwf hinter hrd hk hb ha hr
  let va : Word := readReg s rs1 + imm.signExtend 32
  let t : State := advance 4#32 (ramWrite (va.zeroExtend 34) 4 (readReg s rs2) s)
  have hbt : satpMode t = false ∨ effPriv .load t = .machine := by simpa [satpMode, effPriv, t] using hb.symm
  have hst : t.interleaved = [] := by simp [t, hinter]
  have hcfg : t.cfg = s.cfg := by simp [t]
  have hmem : t.mem = writeBytes va.toNat (readReg s rs2) s.mem 4 := by
    rw [advance_mem, ramWrite_mem, toNat_zeroExtend_phys]
  have hbase : readReg t rs1 = readReg s rs1 := by simp [t]
  have hsw : exec (.sw rs2 rs1 imm) s = .next t := by
    have hstore := storeTo_ram (v := readReg s rs2) (len := 4#32) ((aligned_iff va .word).mpr ha)
      (translate_bare (t := .store) hb.symm) hr
    rwa [interleave_of_nil hinter] at hstore
  have hlw := exec_load_bare (i := .lw rd rs1 imm) (s := t) rfl hbt hst (hbase ▸ ha) (by rw [hbase, hcfg]; exact hr)
  obtain ⟨v, hlbu, -⟩ := exec_answers (.lbu rd rs1 (imm + k)) t
  refine ⟨t, _, v, hsw, hlw, ?_, hlbu, fun hoff => ?_⟩
  · rw [readReg_advance, readReg_writeReg_same hrd, hbase, hmem]
    exact readBytes_writeBytes_word va.toNat (readReg s rs2) hwf
  · have hsum : readReg t rs1 + (imm + k).signExtend 32 = va + k.zeroExtend 32 := by
      rw [hbase, signExtend_add hoff, ← BitVec.add_assoc]
    have hbyte := exec_load_bare (i := .lbu rd rs1 (imm + k)) (s := t) rfl hbt hst (Nat.mod_one _)
      (by rw [hsum, hcfg]; exact inRam_byte_of_word hr ha hk)
    cases hlbu.symm.trans hbyte
    rw [readReg_advance, readReg_writeReg_same hrd, hsum, toNat_add_of_aligned ha hk, hmem, Width.bytes, readBytes_byte,
      readByte_writeBytes_byteOf hk _ _ hwf, extractLsb'_byte_zeroExtend]

end Sys2Proof.Machine
end

section
/-! The 32-bit formats: the fields of what a format puts together, a word put together again from its fields, and the
fields that a mask of the opcode table looks at (R173, R174). -/

namespace Sys2Proof

/-! ## Slices and concatenations -/

theorem extractLsb'_extractLsb' {w : Nat} (x : BitVec w) {a n b m : Nat} (h : b + m ≤ n) :
    (x.extractLsb' a n).extractLsb' b m = x.extractLsb' (a + b) m := by
  apply BitVec.eq_of_getLsbD_eq
  intro i hi
  simp [hi, show b + i < n by omega, Nat.add_assoc]

theorem append_inj_iff {n m : Nat} {a c : BitVec n} {b d : BitVec m} : a ++ b = c ++ d ↔ a = c ∧ b = d := by
  constructor
  · intro h
    have hl := congrArg (BitVec.extractLsb' m n) h
    have hr := congrArg (BitVec.extractLsb' 0 m) h
    rw [BitVec.extractLsb'_append_eq_left, BitVec.extractLsb'_append_eq_left] at hl
    rw [BitVec.extractLsb'_append_eq_right, BitVec.extractLsb'_append_eq_right] at hr
    exact ⟨hl, hr⟩
  · rintro ⟨rfl, rfl⟩; rfl

theorem ofBool_getLsbD {w : Nat} (x : BitVec w) (i : Nat) : BitVec.ofBool (x.getLsbD i) = x.extractLsb' i 1 := by
  apply BitVec.eq_of_getLsbD_eq
  intro j hj
  obtain rfl : j = 0 := by omega
  simp

/-- The low bits of a multiple of 2^k. -/
theorem zeros_eq_extractLsb' {n k : Nat} {off : BitVec n} (h : offsetAligned off k = true) :
    0#k = off.extractLsb' 0 k := (of_decide_eq_true h).symm

/-! ## The fields of a format: each is a slice that lies in one part of the concatenation -/

section
variable (f7 : BitVec 7) (rs2 rs1 : Reg) (f3 : BitVec 3) (rd : Reg) (op : BitVec 7)

@[simp] theorem fields_encR :
    fFunct7 (encR f7 rs2 rs1 f3 rd op) = f7 ∧ fRs2 (encR f7 rs2 rs1 f3 rd op) = rs2 ∧
    fRs1 (encR f7 rs2 rs1 f3 rd op) = rs1 ∧ fFunct3 (encR f7 rs2 rs1 f3 rd op) = f3 ∧
    fRd (encR f7 rs2 rs1 f3 rd op) = rd ∧ fOpcode (encR f7 rs2 rs1 f3 rd op) = op := by
  unfold fFunct7 fRs2 fRs1 fFunct3 fRd fOpcode encR
  simp (disch := decide) only [Nat.reduceSub, Nat.sub_self, BitVec.extractLsb'_append_eq_of_add_le,
    BitVec.extractLsb'_append_eq_of_le, BitVec.extractLsb'_eq_self, and_self]

@[simp] theorem fields_encI (imm : BitVec 12) :
    immI (encI imm rs1 f3 rd op) = imm ∧ fRs1 (encI imm rs1 f3 rd op) = rs1 ∧ fFunct3 (encI imm rs1 f3 rd op) = f3 ∧
    fRd (encI imm rs1 f3 rd op) = rd ∧ fOpcode (encI imm rs1 f3 rd op) = op := by
  unfold immI fRs1 fFunct3 fRd fOpcode encI
  simp (disch := decide) only [Nat.reduceSub, Nat.sub_self, BitVec.extractLsb'_append_eq_of_add_le,
    BitVec.extractLsb'_append_eq_of_le, BitVec.extractLsb'_eq_self, and_self]

@[simp] theorem fields_encS (imm : BitVec 12) :
    immS (encS imm rs2 rs1 f3 op) = imm ∧ fRs2 (encS imm rs2 rs1 f3 op) = rs2 ∧ fRs1 (encS imm rs2 rs1 f3 op) = rs1 ∧
    fFunct3 (encS imm rs2 rs1 f3 op) = f3 ∧ fOpcode (encS imm rs2 rs1 f3 op) = op := by
  unfold immS fRs2 fRs1 fFunct3 fOpcode encS
  simp (disch := decide) only [Nat.reduceSub, Nat.sub_self, BitVec.extractLsb'_append_eq_of_add_le,
    BitVec.extractLsb'_append_eq_of_le, BitVec.extractLsb'_eq_self, BitVec.extractLsb'_append_extractLsb', and_self]

@[simp] theorem fields_encB (off : BitVec 13) :
    fRs2 (encB off rs2 rs1 f3 op) = rs2 ∧ fRs1 (encB off rs2 rs1 f3 op) = rs1 ∧
    fFunct3 (encB off rs2 rs1 f3 op) = f3 ∧ fOpcode (encB off rs2 rs1 f3 op) = op := by
  unfold fRs2 fRs1 fFunct3 fOpcode encB
  simp (disch := decide) only [Nat.reduceSub, Nat.sub_self, BitVec.extractLsb'_append_eq_of_add_le,
    BitVec.extractLsb'_append_eq_of_le, BitVec.extractLsb'_eq_self, and_self]

@[simp] theorem immB_encB {off : BitVec 13} (h : offsetAligned off 1 = true) : immB (encB off rs2 rs1 f3 op) = off := by
  unfold immB encB
  rw [zeros_eq_extractLsb' h]
  simp (disch := decide) only [Nat.reduceSub, Nat.sub_self, BitVec.extractLsb'_append_eq_of_add_le,
    BitVec.extractLsb'_append_eq_of_le, BitVec.extractLsb'_append_extractLsb'_eq_extractLsb', BitVec.extractLsb'_eq_self]

@[simp] theorem fields_encU (imm : BitVec 20) :
    immU (encU imm rd op) = imm ∧ fRd (encU imm rd op) = rd ∧ fOpcode (encU imm rd op) = op := by
  unfold immU fRd fOpcode encU
  simp (disch := decide) only [Nat.reduceSub, Nat.sub_self, BitVec.extractLsb'_append_eq_of_add_le,
    BitVec.extractLsb'_append_eq_of_le, BitVec.extractLsb'_eq_self, and_self]

@[simp] theorem fields_encJ (off : BitVec 21) : fRd (encJ off rd op) = rd ∧ fOpcode (encJ off rd op) = op := by
  unfold fRd fOpcode encJ
  simp (disch := decide) only [Nat.sub_self, BitVec.extractLsb'_append_eq_of_add_le,
    BitVec.extractLsb'_append_eq_of_le, BitVec.extractLsb'_eq_self, and_self]

@[simp] theorem immJ_encJ {off : BitVec 21} (h : offsetAligned off 1 = true) : immJ (encJ off rd op) = off := by
  unfold immJ encJ
  rw [zeros_eq_extractLsb' h]
  simp (disch := decide) only [Nat.reduceSub, Nat.sub_self, BitVec.extractLsb'_append_eq_of_add_le,
    BitVec.extractLsb'_append_eq_of_le, BitVec.extractLsb'_append_extractLsb'_eq_extractLsb', BitVec.extractLsb'_eq_self]

@[simp] theorem fields_encAmo (f5 : BitVec 5) (aq rl : Bool) :
    fFunct5 (encAmo f5 aq rl rs2 rs1 rd) = f5 ∧ fAq (encAmo f5 aq rl rs2 rs1 rd) = aq ∧
    fRl (encAmo f5 aq rl rs2 rs1 rd) = rl ∧ fRs2 (encAmo f5 aq rl rs2 rs1 rd) = rs2 ∧
    fRs1 (encAmo f5 aq rl rs2 rs1 rd) = rs1 ∧ fFunct3 (encAmo f5 aq rl rs2 rs1 rd) = 0b010#3 ∧
    fRd (encAmo f5 aq rl rs2 rs1 rd) = rd ∧ fOpcode (encAmo f5 aq rl rs2 rs1 rd) = 0b0101111#7 := by
  unfold encAmo
  refine ⟨?_, ?_, ?_, by simp⟩
  · unfold fFunct5 encR
    simp (disch := decide) only [Nat.reduceSub, BitVec.extractLsb'_append_eq_of_le, BitVec.extractLsb'_eq_self]
  · unfold fAq encR
    simp only [BitVec.getLsbD_append, BitVec.getLsbD_ofBool, Nat.reduceSub, Nat.reduceLT, if_false, if_true,
      decide_true, Bool.true_and]
  · unfold fRl encR
    simp only [BitVec.getLsbD_append, BitVec.getLsbD_ofBool, Nat.reduceSub, Nat.reduceLT, if_false, if_true,
      decide_true, Bool.true_and]

end

/-! ## A word put together from its fields: slices side by side make one slice -/

section
variable (w : Word)

theorem encR_fields : encR (fFunct7 w) (fRs2 w) (fRs1 w) (fFunct3 w) (fRd w) (fOpcode w) = w := by
  unfold fFunct7 fRs2 fRs1 fFunct3 fRd fOpcode encR
  simp (disch := decide) only [BitVec.extractLsb'_append_extractLsb'_eq_extractLsb', BitVec.extractLsb'_eq_self]

theorem encI_fields : encI (immI w) (fRs1 w) (fFunct3 w) (fRd w) (fOpcode w) = w := by
  unfold immI fRs1 fFunct3 fRd fOpcode encI
  simp (disch := decide) only [BitVec.extractLsb'_append_extractLsb'_eq_extractLsb', BitVec.extractLsb'_eq_self]

theorem encS_fields : encS (immS w) (fRs2 w) (fRs1 w) (fFunct3 w) (fOpcode w) = w := by
  unfold immS fRs2 fRs1 fFunct3 fOpcode encS
  simp (disch := decide) only [Nat.sub_self, BitVec.extractLsb'_append_eq_of_add_le, BitVec.extractLsb'_append_eq_of_le,
    BitVec.extractLsb'_append_extractLsb'_eq_extractLsb', BitVec.extractLsb'_eq_self]

theorem encB_fields : encB (immB w) (fRs2 w) (fRs1 w) (fFunct3 w) (fOpcode w) = w := by
  unfold immB fRs2 fRs1 fFunct3 fOpcode encB
  simp (disch := decide) only [Nat.reduceSub, Nat.sub_self, BitVec.extractLsb'_append_eq_of_add_le,
    BitVec.extractLsb'_append_eq_of_le, BitVec.extractLsb'_append_extractLsb'_eq_extractLsb', BitVec.extractLsb'_eq_self]

theorem encU_fields : encU (immU w) (fRd w) (fOpcode w) = w := by
  unfold immU fRd fOpcode encU
  simp (disch := decide) only [BitVec.extractLsb'_append_extractLsb'_eq_extractLsb', BitVec.extractLsb'_eq_self]

theorem encJ_fields : encJ (immJ w) (fRd w) (fOpcode w) = w := by
  unfold immJ fRd fOpcode encJ
  simp (disch := decide) only [Nat.reduceSub, Nat.sub_self, BitVec.extractLsb'_append_eq_of_add_le,
    BitVec.extractLsb'_append_eq_of_le, BitVec.extractLsb'_append_extractLsb'_eq_extractLsb', BitVec.extractLsb'_eq_self]

theorem fFunct7_eq_append : fFunct7 w = fFunct5 w ++ w.extractLsb' 25 2 :=
  (BitVec.extractLsb'_append_extractLsb'_eq_extractLsb' (x := w) (start₁ := 25) (len₁ := 2) rfl).symm

/-- funct7 of an atomic is funct5, aq, rl (R173, R325). -/
theorem encAmo_fields (h3 : fFunct3 w = 0b010#3) (hop : fOpcode w = 0b0101111#7) :
    encAmo (fFunct5 w) (fAq w) (fRl w) (fRs2 w) (fRs1 w) (fRd w) = w := by
  have h7 : fFunct5 w ++ BitVec.ofBool (fAq w) ++ BitVec.ofBool (fRl w) = fFunct7 w := by
    unfold fFunct5 fAq fRl fFunct7
    rw [ofBool_getLsbD, ofBool_getLsbD]
    simp (disch := decide) only [BitVec.extractLsb'_append_extractLsb'_eq_extractLsb']
  rw [encAmo, h7, ← h3, ← hop]
  exact encR_fields w

/-! ## What a mask of the opcode table looks at -/

theorem and_encR_iff (a7 b7 : BitVec 7) (a2 b2 a1 b1 : Reg) (a3 b3 : BitVec 3) (ad bd : Reg) (ao bo : BitVec 7) :
    w &&& encR a7 a2 a1 a3 ad ao = encR b7 b2 b1 b3 bd bo ↔ fFunct7 w &&& a7 = b7 ∧ fRs2 w &&& a2 = b2 ∧
      fRs1 w &&& a1 = b1 ∧ fFunct3 w &&& a3 = b3 ∧ fRd w &&& ad = bd ∧ fOpcode w &&& ao = bo := by
  conv_lhs => rw [← encR_fields w]
  unfold encR
  rw [BitVec.and_append, append_inj_iff]
  simp only [BitVec.and_append, append_inj_iff, and_assoc]

variable {w} {op : BitVec 7} {f3 : BitVec 3} {f5 : BitVec 5} {f7 : BitVec 7} {rd rs2 : Reg}

theorem and_opcode_iff : w &&& 0x0000007f#32 = encR 0#7 0#5 0#5 0#3 0#5 op ↔ fOpcode w = op :=
  (and_encR_iff w 0#7 _ 0#5 _ 0#5 _ 0#3 _ 0#5 _ (BitVec.allOnes 7) _).trans
    (by simp only [BitVec.and_zero, BitVec.and_allOnes, true_and])

theorem and_funct3_iff : w &&& 0x0000707f#32 = encR 0#7 0#5 0#5 f3 0#5 op ↔ fFunct3 w = f3 ∧ fOpcode w = op :=
  (and_encR_iff w 0#7 _ 0#5 _ 0#5 _ (BitVec.allOnes 3) _ 0#5 _ (BitVec.allOnes 7) _).trans
    (by simp only [BitVec.and_zero, BitVec.and_allOnes, true_and])

theorem and_funct7_iff : w &&& 0xfe00707f#32 = encR f7 0#5 0#5 f3 0#5 op ↔
    fFunct7 w = f7 ∧ fFunct3 w = f3 ∧ fOpcode w = op :=
  (and_encR_iff w (BitVec.allOnes 7) _ 0#5 _ 0#5 _ (BitVec.allOnes 3) _ 0#5 _ (BitVec.allOnes 7) _).trans
    (by simp only [BitVec.and_zero, BitVec.and_allOnes, true_and])

theorem and_funct7_rd_iff : w &&& 0xfe007fff#32 = encR f7 0#5 0#5 f3 rd op ↔
    fFunct7 w = f7 ∧ fFunct3 w = f3 ∧ fRd w = rd ∧ fOpcode w = op :=
  (and_encR_iff w (BitVec.allOnes 7) _ 0#5 _ 0#5 _ (BitVec.allOnes 3) _ (BitVec.allOnes 5) _ (BitVec.allOnes 7) _).trans
    (by simp only [BitVec.and_zero, BitVec.and_allOnes, true_and])

theorem and_funct5_iff : w &&& 0xf800707f#32 = encR (f5 ++ 0#2) 0#5 0#5 f3 0#5 op ↔
    fFunct5 w = f5 ∧ fFunct3 w = f3 ∧ fOpcode w = op :=
  (and_encR_iff w (BitVec.allOnes 5 ++ 0#2) _ 0#5 _ 0#5 _ (BitVec.allOnes 3) _ 0#5 _ (BitVec.allOnes 7) _).trans
    (by
      rw [fFunct7_eq_append, BitVec.and_append, append_inj_iff]
      simp only [BitVec.and_zero, BitVec.and_allOnes, true_and, and_true])

theorem and_funct5_rs2_iff : w &&& 0xf9f0707f#32 = encR (f5 ++ 0#2) rs2 0#5 f3 0#5 op ↔
    fFunct5 w = f5 ∧ fRs2 w = rs2 ∧ fFunct3 w = f3 ∧ fOpcode w = op :=
  (and_encR_iff w (BitVec.allOnes 5 ++ 0#2) _ (BitVec.allOnes 5) _ 0#5 _ (BitVec.allOnes 3) _ 0#5 _
    (BitVec.allOnes 7) _).trans
    (by
      rw [fFunct7_eq_append, BitVec.and_append, append_inj_iff]
      simp only [BitVec.and_zero, BitVec.and_allOnes, true_and, and_true])

end

end Sys2Proof
end

section
/-! The 16-bit formats: the fields of what a format puts together, a halfword put together again from its fields, and the
fields that a mask of the opcode table looks at (R175, R178, R352 to R378). -/

namespace Sys2Proof

/-! ## The fields of a format -/

/-- A register of x8 to x15 is 8 plus its 3-bit field (R178). -/
@[simp] theorem compressedReg_eq {r : Reg} (h : r.isCompressed = true) : 1#2 ++ r.extractLsb' 0 3 = r := by
  have h2 : 1#2 = r.extractLsb' 3 2 := (of_decide_eq_true h).symm
  rw [h2, BitVec.extractLsb'_append_extractLsb']

theorem cLow_low (h : Half) : (cLow h).extractLsb' 0 3 = h.extractLsb' 2 3 := BitVec.extractLsb'_append_eq_right
theorem cHigh_low (h : Half) : (cHigh h).extractLsb' 0 3 = h.extractLsb' 7 3 := BitVec.extractLsb'_append_eq_right

@[simp] theorem imm6_parts (imm : BitVec 6) : imm.extractLsb' 5 1 ++ imm.extractLsb' 0 5 = imm :=
  BitVec.extractLsb'_append_extractLsb'

section
variable (f3 : BitVec 3) (mid high : BitVec 3) (two : BitVec 2) (low : BitVec 3) (q : BitVec 2)

@[simp] theorem fields_encC3 :
    cFunct3 (encC3 f3 mid high two low q) = f3 ∧ cBit12 (encC3 f3 mid high two low q) = mid.extractLsb' 2 1 ∧
    (encC3 f3 mid high two low q).extractLsb' 10 2 = mid.extractLsb' 0 2 ∧
    cHigh (encC3 f3 mid high two low q) = 1#2 ++ high ∧ (encC3 f3 mid high two low q).extractLsb' 5 2 = two ∧
    cLow (encC3 f3 mid high two low q) = 1#2 ++ low ∧ cQuadrant (encC3 f3 mid high two low q) = q := by
  unfold cFunct3 cBit12 cHigh cLow cQuadrant encC3
  simp (disch := decide) only [Nat.reduceSub, Nat.sub_self, BitVec.extractLsb'_append_eq_of_add_le,
    BitVec.extractLsb'_append_eq_of_le, BitVec.extractLsb'_eq_self, and_self]

variable (b12 : BitVec 1) (rd rs2 : BitVec 5)

@[simp] theorem fields_encC5 :
    cFunct3 (encC5 f3 b12 rd rs2 q) = f3 ∧ cBit12 (encC5 f3 b12 rd rs2 q) = b12 ∧ cRd (encC5 f3 b12 rd rs2 q) = rd ∧
    cRs2 (encC5 f3 b12 rd rs2 q) = rs2 ∧ cImm6 (encC5 f3 b12 rd rs2 q) = b12 ++ rs2 ∧
    cQuadrant (encC5 f3 b12 rd rs2 q) = q := by
  unfold cFunct3 cBit12 cRd cRs2 cImm6 cQuadrant encC5
  simp (disch := decide) only [Nat.reduceSub, Nat.sub_self, BitVec.extractLsb'_append_eq_of_add_le,
    BitVec.extractLsb'_append_eq_of_le, BitVec.extractLsb'_eq_self, and_self]

@[simp] theorem fields_encCbAlu (op : BitVec 2) (r : Reg) :
    cFunct3 (encCbAlu b12 op r rs2) = 0b100#3 ∧ cBit12 (encCbAlu b12 op r rs2) = b12 ∧
    (encCbAlu b12 op r rs2).extractLsb' 10 2 = op ∧ cHigh (encCbAlu b12 op r rs2) = 1#2 ++ r.extractLsb' 0 3 ∧
    cRs2 (encCbAlu b12 op r rs2) = rs2 ∧ cImm6 (encCbAlu b12 op r rs2) = b12 ++ rs2 ∧
    cQuadrant (encCbAlu b12 op r rs2) = 0b01#2 := by
  unfold cFunct3 cBit12 cHigh cRs2 cImm6 cQuadrant encCbAlu
  simp (disch := decide) only [Nat.reduceSub, Nat.sub_self, BitVec.extractLsb'_append_eq_of_add_le,
    BitVec.extractLsb'_append_eq_of_le, BitVec.extractLsb'_eq_self, and_self]

@[simp] theorem fields_encCiw (imm : BitVec 10) (r : Reg) :
    cFunct3 (encCiw imm r) = 0b000#3 ∧ cLow (encCiw imm r) = 1#2 ++ r.extractLsb' 0 3 ∧
    cQuadrant (encCiw imm r) = 0b00#2 := by
  unfold cFunct3 cLow cQuadrant encCiw
  simp (disch := decide) only [Nat.reduceSub, Nat.sub_self, BitVec.extractLsb'_append_eq_of_add_le,
    BitVec.extractLsb'_append_eq_of_le, BitVec.extractLsb'_eq_self, and_self]

@[simp] theorem cImmSpn_encCiw {imm : BitVec 10} (h : offsetAligned imm 2 = true) (r : Reg) :
    cImmSpn (encCiw imm r) = imm := by
  unfold cImmSpn encCiw
  rw [zeros_eq_extractLsb' h]
  simp (disch := decide) only [Nat.reduceSub, Nat.sub_self, BitVec.extractLsb'_append_eq_of_add_le,
    BitVec.extractLsb'_append_eq_of_le, BitVec.extractLsb'_eq_self, BitVec.extractLsb'_append_extractLsb'_eq_extractLsb']

@[simp] theorem fields_encCls (imm : BitVec 7) (rs1 r : Reg) :
    cFunct3 (encCls f3 imm rs1 r) = f3 ∧ cHigh (encCls f3 imm rs1 r) = 1#2 ++ rs1.extractLsb' 0 3 ∧
    cLow (encCls f3 imm rs1 r) = 1#2 ++ r.extractLsb' 0 3 ∧ cQuadrant (encCls f3 imm rs1 r) = 0b00#2 := by
  simp [encCls]

@[simp] theorem cImmLs_encCls {imm : BitVec 7} (h : offsetAligned imm 2 = true) (rs1 r : Reg) :
    cImmLs (encCls f3 imm rs1 r) = imm := by
  unfold cImmLs encCls encC3
  rw [zeros_eq_extractLsb' h]
  simp (disch := decide) only [Nat.reduceSub, Nat.sub_self, BitVec.extractLsb'_append_eq_of_add_le,
    BitVec.extractLsb'_append_eq_of_le, BitVec.extractLsb'_eq_self, extractLsb'_extractLsb',
    BitVec.extractLsb'_append_extractLsb'_eq_extractLsb']

@[simp] theorem fields_encCi (imm : BitVec 6) (r : Reg) :
    cFunct3 (encCi f3 imm r) = f3 ∧ cRd (encCi f3 imm r) = r ∧ cImm6 (encCi f3 imm r) = imm ∧
    cQuadrant (encCi f3 imm r) = 0b01#2 := by
  simp [encCi]

@[simp] theorem fields_encCj (off : BitVec 12) :
    cFunct3 (encCj f3 off) = f3 ∧ cQuadrant (encCj f3 off) = 0b01#2 := by
  unfold cFunct3 cQuadrant encCj
  simp (disch := decide) only [Nat.reduceSub, BitVec.extractLsb'_append_eq_of_add_le,
    BitVec.extractLsb'_append_eq_of_le, BitVec.extractLsb'_eq_self, and_self]

@[simp] theorem cImmJ_encCj {off : BitVec 12} (h : offsetAligned off 1 = true) : cImmJ (encCj f3 off) = off := by
  unfold cImmJ encCj
  rw [zeros_eq_extractLsb' h]
  simp (disch := decide) only [Nat.reduceSub, Nat.sub_self, BitVec.extractLsb'_append_eq_of_add_le,
    BitVec.extractLsb'_append_eq_of_le, BitVec.extractLsb'_eq_self, extractLsb'_extractLsb',
    BitVec.extractLsb'_append_extractLsb'_eq_extractLsb']

@[simp] theorem fields_encCb (off : BitVec 9) (r : Reg) :
    cFunct3 (encCb f3 off r) = f3 ∧ cHigh (encCb f3 off r) = 1#2 ++ r.extractLsb' 0 3 ∧
    cQuadrant (encCb f3 off r) = 0b01#2 := by
  simp [encCb]

@[simp] theorem cImmB_encCb {off : BitVec 9} (h : offsetAligned off 1 = true) (r : Reg) :
    cImmB (encCb f3 off r) = off := by
  unfold cImmB encCb encC3
  rw [zeros_eq_extractLsb' h]
  simp (disch := decide) only [Nat.reduceSub, Nat.sub_self, BitVec.extractLsb'_append_eq_of_add_le,
    BitVec.extractLsb'_append_eq_of_le, BitVec.extractLsb'_eq_self, extractLsb'_extractLsb',
    BitVec.extractLsb'_append_extractLsb'_eq_extractLsb']

@[simp] theorem fields_encCa (r r' : Reg) :
    cFunct3 (encCa two r r') = 0b100#3 ∧ cBit12 (encCa two r r') = 0#1 ∧ (encCa two r r').extractLsb' 10 2 = 3#2 ∧
    cHigh (encCa two r r') = 1#2 ++ r.extractLsb' 0 3 ∧ (encCa two r r').extractLsb' 5 2 = two ∧
    cLow (encCa two r r') = 1#2 ++ r'.extractLsb' 0 3 ∧ cQuadrant (encCa two r r') = 0b01#2 := by
  simp [encCa]

@[simp] theorem cImm16sp_encC5 {imm : BitVec 10} (h : offsetAligned imm 4 = true) :
    cImm16sp (encC5 f3 (imm.extractLsb' 9 1) rd
      (imm.extractLsb' 4 1 ++ imm.extractLsb' 6 1 ++ imm.extractLsb' 7 2 ++ imm.extractLsb' 5 1) q) = imm := by
  unfold cImm16sp encC5
  rw [zeros_eq_extractLsb' h]
  simp (disch := decide) only [Nat.reduceSub, Nat.sub_self, BitVec.extractLsb'_append_eq_of_add_le,
    BitVec.extractLsb'_append_eq_of_le, BitVec.extractLsb'_eq_self,
    BitVec.extractLsb'_append_extractLsb'_eq_extractLsb']

@[simp] theorem cImmLwsp_encC5 {imm : BitVec 8} (h : offsetAligned imm 2 = true) :
    cImmLwsp (encC5 f3 (imm.extractLsb' 5 1) rd (imm.extractLsb' 2 3 ++ imm.extractLsb' 6 2) q) = imm := by
  unfold cImmLwsp encC5
  rw [zeros_eq_extractLsb' h]
  simp (disch := decide) only [Nat.reduceSub, Nat.sub_self, BitVec.extractLsb'_append_eq_of_add_le,
    BitVec.extractLsb'_append_eq_of_le, BitVec.extractLsb'_eq_self,
    BitVec.extractLsb'_append_extractLsb'_eq_extractLsb']

@[simp] theorem cImmSwsp_encC5 {imm : BitVec 8} (h : offsetAligned imm 2 = true) :
    cImmSwsp (encC5 f3 (imm.extractLsb' 5 1) (imm.extractLsb' 2 3 ++ imm.extractLsb' 6 2) rs2 q) = imm := by
  have hsplit (x : Half) : x.extractLsb' 9 4 = x.extractLsb' 12 1 ++ x.extractLsb' 9 3 :=
    (BitVec.extractLsb'_append_extractLsb'_eq_extractLsb' (x := x) (start₁ := 9) (len₁ := 3) rfl).symm
  unfold cImmSwsp
  rw [hsplit, zeros_eq_extractLsb' h]
  unfold encC5
  simp (disch := decide) only [Nat.reduceSub, Nat.sub_self, BitVec.extractLsb'_append_eq_of_add_le,
    BitVec.extractLsb'_append_eq_of_le, BitVec.extractLsb'_append_extractLsb'_eq_extractLsb', BitVec.extractLsb'_eq_self]

end

/-! ## A halfword put together from its fields -/

section
variable {h : Half} {f3 : BitVec 3}

theorem encC5_fields : encC5 (cFunct3 h) (cBit12 h) (cRd h) (cRs2 h) (cQuadrant h) = h := by
  unfold cFunct3 cBit12 cRd cRs2 cQuadrant encC5
  simp (disch := decide) only [BitVec.extractLsb'_append_extractLsb'_eq_extractLsb', BitVec.extractLsb'_eq_self]

theorem encC3_fields : encC3 (cFunct3 h) (cBit12 h ++ h.extractLsb' 10 2) (h.extractLsb' 7 3) (h.extractLsb' 5 2)
    (h.extractLsb' 2 3) (cQuadrant h) = h := by
  unfold cFunct3 cBit12 cQuadrant encC3
  simp (disch := decide) only [BitVec.extractLsb'_append_extractLsb'_eq_extractLsb', BitVec.extractLsb'_eq_self]

theorem encCiw_fields (h3 : cFunct3 h = 0b000#3) (hq : cQuadrant h = 0b00#2) : encCiw (cImmSpn h) (cLow h) = h := by
  unfold encCiw
  rw [← h3, ← hq]
  unfold cImmSpn cLow cFunct3 cQuadrant
  simp (disch := decide) only [Nat.reduceSub, Nat.sub_self, BitVec.extractLsb'_append_eq_of_add_le,
    BitVec.extractLsb'_append_eq_of_le, BitVec.extractLsb'_append_extractLsb'_eq_extractLsb', BitVec.extractLsb'_eq_self]

theorem encCls_fields (h3 : cFunct3 h = f3) (hq : cQuadrant h = 0b00#2) :
    encCls f3 (cImmLs h) (cHigh h) (cLow h) = h := by
  unfold encCls encC3
  rw [← h3, ← hq]
  unfold cImmLs cHigh cLow cFunct3 cQuadrant
  simp (disch := decide) only [Nat.reduceSub, Nat.sub_self, BitVec.extractLsb'_append_eq_of_add_le,
    BitVec.extractLsb'_append_eq_of_le, BitVec.extractLsb'_append_extractLsb'_eq_extractLsb', BitVec.extractLsb'_eq_self]

theorem encCi_fields (h3 : cFunct3 h = f3) (hq : cQuadrant h = 0b01#2) : encCi f3 (cImm6 h) (cRd h) = h := by
  unfold encCi encC5
  rw [← h3, ← hq]
  unfold cImm6 cRd cFunct3 cQuadrant
  simp (disch := decide) only [Nat.sub_self, BitVec.extractLsb'_append_eq_of_add_le,
    BitVec.extractLsb'_append_eq_of_le, BitVec.extractLsb'_append_extractLsb'_eq_extractLsb', BitVec.extractLsb'_eq_self]

theorem encCj_fields (h3 : cFunct3 h = f3) (hq : cQuadrant h = 0b01#2) : encCj f3 (cImmJ h) = h := by
  unfold encCj
  rw [← h3, ← hq]
  unfold cImmJ cFunct3 cQuadrant
  simp (disch := decide) only [Nat.reduceSub, Nat.sub_self, BitVec.extractLsb'_append_eq_of_add_le,
    BitVec.extractLsb'_append_eq_of_le, BitVec.extractLsb'_append_extractLsb'_eq_extractLsb', BitVec.extractLsb'_eq_self]

theorem encCb_fields (h3 : cFunct3 h = f3) (hq : cQuadrant h = 0b01#2) : encCb f3 (cImmB h) (cHigh h) = h := by
  unfold encCb encC3
  rw [← h3, ← hq]
  unfold cImmB cHigh cFunct3 cQuadrant
  simp (disch := decide) only [Nat.reduceSub, Nat.sub_self, BitVec.extractLsb'_append_eq_of_add_le,
    BitVec.extractLsb'_append_eq_of_le, BitVec.extractLsb'_append_extractLsb'_eq_extractLsb', BitVec.extractLsb'_eq_self]

theorem encCbAlu_fields (h3 : cFunct3 h = 0b100#3) (hq : cQuadrant h = 0b01#2) :
    encCbAlu (cBit12 h) (h.extractLsb' 10 2) (cHigh h) (cRs2 h) = h := by
  unfold encCbAlu
  rw [← h3, ← hq]
  unfold cBit12 cHigh cRs2 cFunct3 cQuadrant
  simp (disch := decide) only [BitVec.extractLsb'_append_eq_right, BitVec.extractLsb'_append_extractLsb'_eq_extractLsb',
    BitVec.extractLsb'_eq_self]

theorem encCa_fields (h3 : cFunct3 h = 0b100#3) (h12 : cBit12 h = 0#1) (h10 : h.extractLsb' 10 2 = 3#2)
    (hq : cQuadrant h = 0b01#2) : encCa (h.extractLsb' 5 2) (cHigh h) (cLow h) = h := by
  have henc := encC3_fields (h := h)
  rw [h3, h12, h10, hq] at henc
  rw [encCa, cHigh_low, cLow_low]
  exact henc

/-- C.ADDI16SP: CI with the immediate of R359. -/
theorem encC5_cImm16sp (h3 : cFunct3 h = f3) {rd : Reg} (hrd : cRd h = rd) {q : BitVec 2} (hq : cQuadrant h = q) :
    encC5 f3 ((cImm16sp h).extractLsb' 9 1) rd ((cImm16sp h).extractLsb' 4 1 ++ (cImm16sp h).extractLsb' 6 1
      ++ (cImm16sp h).extractLsb' 7 2 ++ (cImm16sp h).extractLsb' 5 1) q = h := by
  rw [← h3, ← hrd, ← hq]
  unfold encC5 cImm16sp cFunct3 cRd cQuadrant
  simp (disch := decide) only [Nat.reduceSub, Nat.sub_self, BitVec.extractLsb'_append_eq_of_add_le,
    BitVec.extractLsb'_append_eq_of_le, BitVec.extractLsb'_append_extractLsb'_eq_extractLsb', BitVec.extractLsb'_eq_self]

theorem encC5_cImmLwsp (h3 : cFunct3 h = f3) {q : BitVec 2} (hq : cQuadrant h = q) :
    encC5 f3 ((cImmLwsp h).extractLsb' 5 1) (cRd h)
      ((cImmLwsp h).extractLsb' 2 3 ++ (cImmLwsp h).extractLsb' 6 2) q = h := by
  rw [← h3, ← hq]
  unfold encC5 cImmLwsp cFunct3 cRd cQuadrant
  simp (disch := decide) only [Nat.reduceSub, Nat.sub_self, BitVec.extractLsb'_append_eq_of_add_le,
    BitVec.extractLsb'_append_eq_of_le, BitVec.extractLsb'_append_extractLsb'_eq_extractLsb', BitVec.extractLsb'_eq_self]

theorem encC5_cImmSwsp (h3 : cFunct3 h = f3) {q : BitVec 2} (hq : cQuadrant h = q) :
    encC5 f3 ((cImmSwsp h).extractLsb' 5 1) ((cImmSwsp h).extractLsb' 2 3 ++ (cImmSwsp h).extractLsb' 6 2) (cRs2 h) q
      = h := by
  rw [← h3, ← hq]
  unfold encC5 cImmSwsp cFunct3 cRs2 cQuadrant
  simp (disch := decide) only [Nat.reduceSub, Nat.sub_self, BitVec.extractLsb'_append_eq_of_add_le,
    BitVec.extractLsb'_append_eq_of_le, extractLsb'_extractLsb',
    BitVec.extractLsb'_append_extractLsb'_eq_extractLsb', BitVec.extractLsb'_eq_self]

/-! ## Immediates that are zero together -/

theorem cImmSpn_eq_zero_iff : cImmSpn h = 0#10 ↔ h.extractLsb' 5 8 = 0#8 := by
  have hwhole : h.extractLsb' 5 8 = h.extractLsb' 11 2 ++ h.extractLsb' 7 4 ++ h.extractLsb' 6 1
      ++ h.extractLsb' 5 1 := by
    simp (disch := decide) only [BitVec.extractLsb'_append_extractLsb'_eq_extractLsb']
  rw [hwhole, show 0#8 = 0#2 ++ 0#4 ++ 0#1 ++ 0#1 from rfl, cImmSpn, show 0#10 = 0#4 ++ 0#2 ++ 0#1 ++ 0#1 ++ 0#2 from rfl]
  rw [append_inj_iff, append_inj_iff (b := h.extractLsb' 5 1)]
  simp only [append_inj_iff]
  tauto

/-- C.ADDI16SP and C.LUI share the six bits of their immediate (R359, R360). -/
theorem cImm16sp_eq_zero_of_cImm6 (h0 : cImm6 h = 0#6) : cImm16sp h = 0#10 := by
  have hparts : cImm16sp h = (cImm6 h).extractLsb' 5 1 ++ (cImm6 h).extractLsb' 1 2 ++ (cImm6 h).extractLsb' 3 1
      ++ (cImm6 h).extractLsb' 0 1 ++ (cImm6 h).extractLsb' 4 1 ++ 0#4 := by
    unfold cImm16sp cImm6
    simp (disch := decide) only [Nat.sub_self, BitVec.extractLsb'_append_eq_of_add_le,
      BitVec.extractLsb'_append_eq_of_le, extractLsb'_extractLsb']
  rw [hparts, h0]
  rfl

/-! ## What a mask of the opcode table looks at -/

theorem and_encC5_iff (a3 b3 : BitVec 3) (a12 b12 : BitVec 1) (ad bd a2 b2 : Reg) (aq bq : BitVec 2) :
    h &&& encC5 a3 a12 ad a2 aq = encC5 b3 b12 bd b2 bq ↔ cFunct3 h &&& a3 = b3 ∧ cBit12 h &&& a12 = b12 ∧
      cRd h &&& ad = bd ∧ cRs2 h &&& a2 = b2 ∧ cQuadrant h &&& aq = bq := by
  conv_lhs => rw [← encC5_fields (h := h)]
  unfold encC5
  rw [BitVec.and_append, append_inj_iff]
  simp only [BitVec.and_append, append_inj_iff, and_assoc]

theorem and_encC3_iff (a3 b3 : BitVec 3) (a12 b12 : BitVec 1) (a10 b10 : BitVec 2) (ah bh : BitVec 3) (a5 b5 : BitVec 2)
    (al bl : BitVec 3) (aq bq : BitVec 2) :
    h &&& encC3 a3 (a12 ++ a10) ah a5 al aq = encC3 b3 (b12 ++ b10) bh b5 bl bq ↔ cFunct3 h &&& a3 = b3 ∧
      cBit12 h &&& a12 = b12 ∧ h.extractLsb' 10 2 &&& a10 = b10 ∧ h.extractLsb' 7 3 &&& ah = bh ∧
      h.extractLsb' 5 2 &&& a5 = b5 ∧ h.extractLsb' 2 3 &&& al = bl ∧ cQuadrant h &&& aq = bq := by
  conv_lhs => rw [← encC3_fields (h := h)]
  unfold encC3
  rw [BitVec.and_append, append_inj_iff]
  simp only [BitVec.and_append, append_inj_iff, and_assoc]

variable {q : BitVec 2} {rd rs2 : Reg} {b12 : BitVec 1} {op two : BitVec 2}

theorem and_cFunct3_iff : h &&& 0xe003#16 = encC5 f3 0#1 0#5 0#5 q ↔ cFunct3 h = f3 ∧ cQuadrant h = q :=
  (and_encC5_iff (BitVec.allOnes 3) _ 0#1 _ 0#5 _ 0#5 _ (BitVec.allOnes 2) _).trans
    (by simp only [BitVec.and_zero, BitVec.and_allOnes, true_and])

theorem and_cRd_iff : h &&& 0xef83#16 = encC5 f3 0#1 rd 0#5 q ↔ cFunct3 h = f3 ∧ cRd h = rd ∧ cQuadrant h = q :=
  (and_encC5_iff (BitVec.allOnes 3) _ 0#1 _ (BitVec.allOnes 5) _ 0#5 _ (BitVec.allOnes 2) _).trans
    (by simp only [BitVec.and_zero, BitVec.and_allOnes, true_and])

theorem and_cBit12_iff : h &&& 0xf003#16 = encC5 f3 b12 0#5 0#5 q ↔
    cFunct3 h = f3 ∧ cBit12 h = b12 ∧ cQuadrant h = q :=
  (and_encC5_iff (BitVec.allOnes 3) _ (BitVec.allOnes 1) _ 0#5 _ 0#5 _ (BitVec.allOnes 2) _).trans
    (by simp only [BitVec.and_zero, BitVec.and_allOnes, true_and])

theorem and_cRs2_iff : h &&& 0xf07f#16 = encC5 f3 b12 0#5 rs2 q ↔
    cFunct3 h = f3 ∧ cBit12 h = b12 ∧ cRs2 h = rs2 ∧ cQuadrant h = q :=
  (and_encC5_iff (BitVec.allOnes 3) _ (BitVec.allOnes 1) _ 0#5 _ (BitVec.allOnes 5) _ (BitVec.allOnes 2) _).trans
    (by simp only [BitVec.and_zero, BitVec.and_allOnes, true_and])

/-- C.SRLI and C.SRAI. -/
theorem and_shiftForm_iff : h &&& 0xfc03#16 = encC3 f3 (b12 ++ op) 0#3 0#2 0#3 q ↔
    cFunct3 h = f3 ∧ cBit12 h = b12 ∧ h.extractLsb' 10 2 = op ∧ cQuadrant h = q :=
  (and_encC3_iff (BitVec.allOnes 3) _ (BitVec.allOnes 1) _ (BitVec.allOnes 2) _ 0#3 _ 0#2 _ 0#3 _
    (BitVec.allOnes 2) _).trans (by simp only [BitVec.and_zero, BitVec.and_allOnes, true_and])

/-- C.ANDI, whose immediate has h[12]. -/
theorem and_andiForm_iff : h &&& 0xec03#16 = encC3 f3 (0#1 ++ op) 0#3 0#2 0#3 q ↔
    cFunct3 h = f3 ∧ h.extractLsb' 10 2 = op ∧ cQuadrant h = q :=
  (and_encC3_iff (BitVec.allOnes 3) _ 0#1 _ (BitVec.allOnes 2) _ 0#3 _ 0#2 _ 0#3 _
    (BitVec.allOnes 2) _).trans (by simp only [BitVec.and_zero, BitVec.and_allOnes, true_and])

/-- C.SUB, C.XOR, C.OR and C.AND. -/
theorem and_caForm_iff : h &&& 0xfc63#16 = encC3 f3 (b12 ++ op) 0#3 two 0#3 q ↔
    cFunct3 h = f3 ∧ cBit12 h = b12 ∧ h.extractLsb' 10 2 = op ∧ h.extractLsb' 5 2 = two ∧ cQuadrant h = q :=
  (and_encC3_iff (BitVec.allOnes 3) _ (BitVec.allOnes 1) _ (BitVec.allOnes 2) _ 0#3 _ (BitVec.allOnes 2) _ 0#3 _
    (BitVec.allOnes 2) _).trans (by simp only [BitVec.and_zero, BitVec.and_allOnes, true_and])

end

end Sys2Proof
end

section
/-! The 32-bit rows of the opcode table: each is a well-formed instruction with its encoding, each word that decodes
does so by a row, and the decoder reads an encoding back (R173, R177, R179, R180, R185). -/

namespace Sys2Proof

/-! ## A row is the encoding of its instruction -/

/-- A word that matches the row is the encoding of the row's instruction, which is well formed. -/
def WordRowEncodes (w : Word) (r : Word × Word × Instr) : Prop :=
  w &&& r.2.1 = r.1 → r.2.2.wellFormed = true ∧ encode r.2.2 = .word w

section
variable {w : Word} {i : Instr} {op : BitVec 7} {f3 : BitVec 3} {f5 : BitVec 5} {f7 : BitVec 7} {m : Word}

/-- A row that looks at the opcode, in the format `enc` of the opcode. -/
theorem opcodeRow (enc : BitVec 7 → Word) (henc : enc (fOpcode w) = w) (hwf : i.wellFormed = true)
    (hi : encode i = .word (enc op)) (hm : m = encR 0#7 0#5 0#5 0#3 0#5 op) :
    WordRowEncodes w (m, 0x0000007f#32, i) := fun h => by
  obtain rfl := and_opcode_iff.1 (h.trans hm)
  exact ⟨hwf, hi.trans (congrArg _ henc)⟩

/-- A row that looks at funct3 and the opcode. -/
theorem funct3Row (enc : BitVec 3 → BitVec 7 → Word) (henc : enc (fFunct3 w) (fOpcode w) = w)
    (hwf : i.wellFormed = true) (hi : encode i = .word (enc f3 op)) (hm : m = encR 0#7 0#5 0#5 f3 0#5 op) :
    WordRowEncodes w (m, 0x0000707f#32, i) := fun h => by
  obtain ⟨rfl, rfl⟩ := and_funct3_iff.1 (h.trans hm)
  exact ⟨hwf, hi.trans (congrArg _ henc)⟩

theorem rowU (hwf : i.wellFormed = true) (hi : encode i = .word (encU (immU w) (fRd w) op)) :
    m = encR 0#7 0#5 0#5 0#3 0#5 op → WordRowEncodes w (m, 0x0000007f#32, i) :=
  opcodeRow (fun op => encU (immU w) (fRd w) op) (encU_fields w) hwf hi

theorem rowJ (hwf : i.wellFormed = true) (hi : encode i = .word (encJ (immJ w) (fRd w) op)) :
    m = encR 0#7 0#5 0#5 0#3 0#5 op → WordRowEncodes w (m, 0x0000007f#32, i) :=
  opcodeRow (fun op => encJ (immJ w) (fRd w) op) (encJ_fields w) hwf hi

theorem rowI (hwf : i.wellFormed = true) (hi : encode i = .word (encI (immI w) (fRs1 w) f3 (fRd w) op)) :
    m = encR 0#7 0#5 0#5 f3 0#5 op → WordRowEncodes w (m, 0x0000707f#32, i) :=
  funct3Row (fun f3 op => encI (immI w) (fRs1 w) f3 (fRd w) op) (encI_fields w) hwf hi

theorem rowS (hwf : i.wellFormed = true) (hi : encode i = .word (encS (immS w) (fRs2 w) (fRs1 w) f3 op)) :
    m = encR 0#7 0#5 0#5 f3 0#5 op → WordRowEncodes w (m, 0x0000707f#32, i) :=
  funct3Row (encS (immS w) (fRs2 w) (fRs1 w)) (encS_fields w) hwf hi

theorem rowB (hwf : i.wellFormed = true) (hi : encode i = .word (encB (immB w) (fRs2 w) (fRs1 w) f3 op)) :
    m = encR 0#7 0#5 0#5 f3 0#5 op → WordRowEncodes w (m, 0x0000707f#32, i) :=
  funct3Row (encB (immB w) (fRs2 w) (fRs1 w)) (encB_fields w) hwf hi

theorem rowR (hwf : i.wellFormed = true) (hi : encode i = .word (encR f7 (fRs2 w) (fRs1 w) f3 (fRd w) op))
    (hm : m = encR f7 0#5 0#5 f3 0#5 op) : WordRowEncodes w (m, 0xfe00707f#32, i) := fun h => by
  obtain ⟨rfl, rfl, rfl⟩ := and_funct7_iff.1 (h.trans hm)
  exact ⟨hwf, hi.trans (congrArg _ (encR_fields w))⟩

theorem rowAmo (hwf : i.wellFormed = true) (hi : encode i = .word (encAmo f5 (fAq w) (fRl w) (fRs2 w) (fRs1 w) (fRd w)))
    (hm : m = encR (f5 ++ 0#2) 0#5 0#5 0b010#3 0#5 0b0101111#7) : WordRowEncodes w (m, 0xf800707f#32, i) := fun h => by
  obtain ⟨rfl, h3, hop⟩ := and_funct5_iff.1 (h.trans hm)
  exact ⟨hwf, hi.trans (congrArg _ (encAmo_fields w h3 hop))⟩

/-- An instruction without operands (R179). -/
theorem rowWhole (hwf : i.wellFormed = true) (hi : encode i = .word m) : WordRowEncodes w (m, 0xffffffff#32, i) :=
  fun h => ⟨hwf, hi.trans (congrArg _ (BitVec.and_allOnes.symm.trans h).symm)⟩

end

section
variable (w : Word)

/-- The format of each row, in the order of the table; likewise in the three lists below. -/
theorem wordRows1_encode : ∀ r ∈ Spec.wordRows1 w, WordRowEncodes w r := by
  have hj : offsetAligned (immJ w) 1 = true := offsetAligned_append _ 1
  have hb : offsetAligned (immB w) 1 = true := offsetAligned_append _ 1
  simp only [Spec.wordRows1, List.forall_mem_cons]
  exact ⟨rowU rfl rfl rfl, rowU rfl rfl rfl, rowJ hj rfl rfl, rowI rfl rfl rfl,
    rowB hb rfl rfl, rowB hb rfl rfl, rowB hb rfl rfl, rowB hb rfl rfl, rowB hb rfl rfl, rowB hb rfl rfl,
    rowI rfl rfl rfl, rowI rfl rfl rfl, rowI rfl rfl rfl, rowI rfl rfl rfl, rowI rfl rfl rfl,
    rowS rfl rfl rfl, rowS rfl rfl rfl, rowS rfl rfl rfl, List.forall_mem_nil _⟩

theorem wordRows2_encode : ∀ r ∈ Spec.wordRows2 w, WordRowEncodes w r := by
  simp only [Spec.wordRows2, List.forall_mem_cons]
  exact ⟨rowI rfl rfl rfl, rowI rfl rfl rfl, rowI rfl rfl rfl, rowI rfl rfl rfl, rowI rfl rfl rfl, rowI rfl rfl rfl,
    rowR rfl rfl rfl, rowR rfl rfl rfl, rowR rfl rfl rfl, rowR rfl rfl rfl, rowR rfl rfl rfl, rowR rfl rfl rfl,
    rowR rfl rfl rfl, rowR rfl rfl rfl, rowR rfl rfl rfl, rowR rfl rfl rfl, rowR rfl rfl rfl, rowR rfl rfl rfl,
    List.forall_mem_nil _⟩

theorem row_fence : WordRowEncodes w (0x0000000f#32, 0x0000707f#32,
    .fence (w.extractLsb' 28 4) (w.extractLsb' 24 4) (w.extractLsb' 20 4) (fRs1 w) (fRd w)) := by
  have himm : w.extractLsb' 28 4 ++ w.extractLsb' 24 4 ++ w.extractLsb' 20 4 = immI w := by
    simp (disch := decide) only [BitVec.extractLsb'_append_extractLsb'_eq_extractLsb', immI]
  exact rowI (f3 := 0b000#3) (op := 0b0001111#7) rfl (by rw [encode, himm]) rfl

/-- SFENCE.VMA has rd = 0 (R408). -/
theorem row_sfenceVma : WordRowEncodes w (0x12000073#32, 0xfe007fff#32, .sfenceVma (fRs1 w) (fRs2 w)) := fun h => by
  obtain ⟨h7, h3, hd, hop⟩ :=
    (and_funct7_rd_iff (f7 := 0b0001001#7) (f3 := 0b000#3) (rd := 0#5) (op := 0b1110011#7)).1 h
  have henc := encR_fields w
  rw [h7, h3, hd, hop] at henc
  exact ⟨rfl, congrArg RawInsn.word henc⟩

theorem wordRows3_encode : ∀ r ∈ Spec.wordRows3 w, WordRowEncodes w r := by
  simp only [Spec.wordRows3, List.forall_mem_cons]
  exact ⟨rowR rfl rfl rfl, row_fence w, rowI rfl rfl rfl,
    rowWhole rfl rfl, rowWhole rfl rfl, rowWhole rfl rfl, rowWhole rfl rfl, rowWhole rfl rfl, rowWhole rfl rfl,
    row_sfenceVma w, rowI rfl rfl rfl, rowI rfl rfl rfl, rowI rfl rfl rfl, rowI rfl rfl rfl, rowI rfl rfl rfl,
    rowI rfl rfl rfl, rowR rfl rfl rfl, rowR rfl rfl rfl, List.forall_mem_nil _⟩

/-- LR.W has rs2 = 0 (R326). -/
theorem row_lrW : WordRowEncodes w (0x1000202f#32, 0xf9f0707f#32, .lrW (fAq w) (fRl w) (fRd w) (fRs1 w)) := fun h => by
  obtain ⟨h5, h2, h3, hop⟩ :=
    (and_funct5_rs2_iff (f5 := 0b00010#5) (rs2 := 0#5) (f3 := 0b010#3) (op := 0b0101111#7)).1 h
  have henc := encAmo_fields w h3 hop
  rw [h5, h2] at henc
  exact ⟨rfl, congrArg RawInsn.word henc⟩

theorem wordRows4_encode : ∀ r ∈ Spec.wordRows4 w, WordRowEncodes w r := by
  simp only [Spec.wordRows4, List.forall_mem_cons]
  exact ⟨rowR rfl rfl rfl, rowR rfl rfl rfl, rowR rfl rfl rfl, rowR rfl rfl rfl, rowR rfl rfl rfl, rowR rfl rfl rfl,
    row_lrW w, rowAmo rfl rfl rfl, rowAmo rfl rfl rfl, rowAmo rfl rfl rfl, rowAmo rfl rfl rfl, rowAmo rfl rfl rfl,
    rowAmo rfl rfl rfl, rowAmo rfl rfl rfl, rowAmo rfl rfl rfl, rowAmo rfl rfl rfl, rowAmo rfl rfl rfl,
    List.forall_mem_nil _⟩

theorem wordRows_encode : ∀ r ∈ Spec.wordRows w, WordRowEncodes w r := by
  simp only [Spec.wordRows, List.forall_mem_append]
  exact ⟨⟨⟨wordRows1_encode w, wordRows2_encode w⟩, wordRows3_encode w⟩, wordRows4_encode w⟩

end

/-! ## A word that decodes matches a row -/

/-- The word matches a row whose instruction is `i`. -/
def MatchesWordRow (w : Word) (i : Instr) : Prop := ∃ m k, (m, k, i) ∈ Spec.wordRows w ∧ w &&& k = m

section
variable {w : Word} {i : Instr} {op : BitVec 7} {f3 : BitVec 3} {f5 : BitVec 5} {f7 : BitVec 7}

theorem matches_of_opcode (hop : fOpcode w = op)
    (hmem : (encR 0#7 0#5 0#5 0#3 0#5 op, 0x0000007f#32, i) ∈ Spec.wordRows w) : MatchesWordRow w i :=
  ⟨_, _, hmem, and_opcode_iff.2 hop⟩

theorem matches_of_funct3 (hop : fOpcode w = op) (h3 : fFunct3 w = f3)
    (hmem : (encR 0#7 0#5 0#5 f3 0#5 op, 0x0000707f#32, i) ∈ Spec.wordRows w) : MatchesWordRow w i :=
  ⟨_, _, hmem, and_funct3_iff.2 ⟨h3, hop⟩⟩

theorem matches_of_funct7 (hop : fOpcode w = op) (h3 : fFunct3 w = f3) (h7 : fFunct7 w = f7)
    (hmem : (encR f7 0#5 0#5 f3 0#5 op, 0xfe00707f#32, i) ∈ Spec.wordRows w) : MatchesWordRow w i :=
  ⟨_, _, hmem, and_funct7_iff.2 ⟨h7, h3, hop⟩⟩

theorem matches_of_funct5 (hop : fOpcode w = op) (h3 : fFunct3 w = f3) (h5 : fFunct5 w = f5)
    (hmem : (encR (f5 ++ 0#2) 0#5 0#5 f3 0#5 op, 0xf800707f#32, i) ∈ Spec.wordRows w) : MatchesWordRow w i :=
  ⟨_, _, hmem, and_funct5_iff.2 ⟨h5, h3, hop⟩⟩

theorem matches_of_whole {m : Word} (hw : w = m) (hmem : (m, 0xffffffff#32, i) ∈ Spec.wordRows w) :
    MatchesWordRow w i :=
  ⟨_, _, hmem, BitVec.and_allOnes.trans hw⟩

theorem decodeLoad_matches (hop : fOpcode w = 0b0000011#7) (h : decodeLoad w = .ok i) : MatchesWordRow w i := by
  unfold decodeLoad at h
  split at h
  all_goals cases h
  all_goals exact matches_of_funct3 hop ‹_› (by simp [Spec.wordRows, Spec.wordRows1, encR, fRd, fRs1, immI])

theorem decodeMiscMem_matches (hop : fOpcode w = 0b0001111#7) (h : decodeMiscMem w = .ok i) : MatchesWordRow w i := by
  unfold decodeMiscMem at h
  split at h
  all_goals cases h
  all_goals exact matches_of_funct3 hop ‹_› (by simp [Spec.wordRows, Spec.wordRows3, encR, fRd, fRs1, immI])

theorem decodeOpImm_matches (hop : fOpcode w = 0b0010011#7) (h : decodeOpImm w = .ok i) : MatchesWordRow w i := by
  unfold decodeOpImm at h
  split at h
  case h_7 h3 =>
    split at h
    all_goals cases h
    exact matches_of_funct7 hop h3 ‹_› (by simp [Spec.wordRows, Spec.wordRows2, encR, fRd, fRs1, fRs2])
  case h_8 n0 n2 n3 n4 n6 n7 n1 =>
    have h3 : fFunct3 w = 0b101#3 := by
      generalize fFunct3 w = f at *
      revert f; decide
    split at h
    all_goals cases h
    all_goals exact matches_of_funct7 hop h3 ‹_› (by simp [Spec.wordRows, Spec.wordRows2, encR, fRd, fRs1, fRs2])
  all_goals
    cases h
    exact matches_of_funct3 hop ‹_› (by simp [Spec.wordRows, Spec.wordRows2, encR, fRd, fRs1, immI])

theorem decodeStore_matches (hop : fOpcode w = 0b0100011#7) (h : decodeStore w = .ok i) : MatchesWordRow w i := by
  unfold decodeStore at h
  split at h
  all_goals cases h
  all_goals exact matches_of_funct3 hop ‹_› (by simp [Spec.wordRows, Spec.wordRows1, encR, fRs1, fRs2, immS])

theorem decodeAmo_matches (hop : fOpcode w = 0b0101111#7) (h : decodeAmo w = .ok i) : MatchesWordRow w i := by
  unfold decodeAmo at h
  split at h
  next h3 =>
    split at h
    case h_1 h5 =>
      split at h
      next h2 =>
        cases h
        exact ⟨0x1000202f#32, 0xf9f0707f#32, by simp [Spec.wordRows, Spec.wordRows4, fRd, fRs1, fAq, fRl],
          and_funct5_rs2_iff.2 ⟨h5, h2, h3, hop⟩⟩
      next => cases h
    all_goals cases h
    all_goals
      exact matches_of_funct5 hop h3 ‹_›
        (by simp [Spec.wordRows, Spec.wordRows4, encR, fRd, fRs1, fRs2, fAq, fRl])
  next => cases h

theorem decodeOp_matches (hop : fOpcode w = 0b0110011#7) (h : decodeOp w = .ok i) : MatchesWordRow w i := by
  unfold decodeOp at h
  split at h
  all_goals cases h
  all_goals
    exact matches_of_funct7 hop ‹_› ‹_›
      (by simp [Spec.wordRows, Spec.wordRows2, Spec.wordRows3, Spec.wordRows4, encR, fRd, fRs1, fRs2])

theorem decodeBranch_matches (hop : fOpcode w = 0b1100011#7) (h : decodeBranch w = .ok i) : MatchesWordRow w i := by
  unfold decodeBranch at h
  split at h
  all_goals cases h
  all_goals exact matches_of_funct3 hop ‹_› (by simp [Spec.wordRows, Spec.wordRows1, encR, fRs1, fRs2, immB])

theorem decodeSystemWord_matches (hop : fOpcode w = 0b1110011#7) (h3 : fFunct3 w = 0b000#3)
    (h : decodeSystemWord w = .ok i) : MatchesWordRow w i := by
  unfold decodeSystemWord at h
  split_ifs at h
  pick_goal 7
  · obtain ⟨h7, hd⟩ := ‹fFunct7 w = 0b0001001#7 ∧ fRd w = 0#5›
    cases h
    exact ⟨0x12000073#32, 0xfe007fff#32, by simp [Spec.wordRows, Spec.wordRows3, fRs1, fRs2],
      and_funct7_rd_iff.2 ⟨h7, h3, hd, hop⟩⟩
  all_goals
    cases h
    exact matches_of_whole ‹_› (by simp [Spec.wordRows, Spec.wordRows3])

theorem decodeSystem_matches (hop : fOpcode w = 0b1110011#7) (h : decodeSystem w = .ok i) : MatchesWordRow w i := by
  unfold decodeSystem at h
  split at h
  case h_1 h3 => exact decodeSystemWord_matches hop h3 h
  all_goals cases h
  all_goals exact matches_of_funct3 hop ‹_› (by simp [Spec.wordRows, Spec.wordRows3, encR, fRd, fRs1, fCsr])

theorem decode32_matches (h : decode32 w = .ok i) : MatchesWordRow w i := by
  unfold decode32 at h
  split at h
  next hop => exact decodeLoad_matches hop h
  next hop => exact decodeMiscMem_matches hop h
  next hop => exact decodeOpImm_matches hop h
  next hop => cases h; exact matches_of_opcode hop (by simp [Spec.wordRows, Spec.wordRows1, encR, fRd, immU])
  next hop => exact decodeStore_matches hop h
  next hop => exact decodeAmo_matches hop h
  next hop => exact decodeOp_matches hop h
  next hop => cases h; exact matches_of_opcode hop (by simp [Spec.wordRows, Spec.wordRows1, encR, fRd, immU])
  next hop => exact decodeBranch_matches hop h
  next hop =>
    split at h
    all_goals cases h
    exact matches_of_funct3 hop ‹_› (by simp [Spec.wordRows, Spec.wordRows1, encR, fRd, fRs1, immI])
  next hop => cases h; exact matches_of_opcode hop (by simp [Spec.wordRows, Spec.wordRows1, encR, fRd, immJ])
  next hop => exact decodeSystem_matches hop h
  next => cases h

end

end Sys2Proof
end

section
/-! The 16-bit rows of the opcode table: each is a well-formed instruction with its encoding, and each halfword that
decodes does so by a row (R182, R183, R352 to R380). -/

namespace Sys2Proof

/-! ## A row is the encoding of its instruction -/

/-- A halfword that matches the row, its constraint included, is the encoding of the row's instruction, which is well
formed. -/
def HalfRowEncodes (h : Half) (r : Half × Half × Bool × Instr) : Prop :=
  h &&& r.2.1 = r.1 → r.2.2.1 = true → r.2.2.2.wellFormed = true ∧ encode r.2.2.2 = .half h

section
variable {h : Half} {i : Instr} {m : Half} {c : Bool} {f3 : BitVec 3} {q : BitVec 2}

/-- A row that looks at the quadrant and funct3. -/
theorem quadrantRow (hm : m = encC5 f3 0#1 0#5 0#5 q)
    (hrow : cFunct3 h = f3 → cQuadrant h = q → c = true → i.wellFormed = true ∧ encode i = .half h) :
    HalfRowEncodes h (m, 0xe003#16, c, i) := fun hmatch => by
  obtain ⟨h3, hq⟩ := and_cFunct3_iff.1 (Eq.trans hmatch hm)
  exact hrow h3 hq

theorem wholeRow (hwf : i.wellFormed = true) (hi : encode i = .half m) : HalfRowEncodes h (m, 0xffff#16, c, i) :=
  fun hmatch _ => ⟨hwf, hi.trans (congrArg _ (BitVec.and_allOnes.symm.trans hmatch).symm)⟩

theorem rowCls (hwf : i.wellFormed = true) (hi : encode i = .half (encCls f3 (cImmLs h) (cHigh h) (cLow h)))
    (hm : m = encC5 f3 0#1 0#5 0#5 0b00#2) : HalfRowEncodes h (m, 0xe003#16, c, i) :=
  quadrantRow hm fun h3 hq _ => ⟨hwf, hi.trans (congrArg _ (encCls_fields h3 hq))⟩

theorem rowCi (hwf : c = true → i.wellFormed = true) (hi : encode i = .half (encCi f3 (cImm6 h) (cRd h)))
    (hm : m = encC5 f3 0#1 0#5 0#5 0b01#2) : HalfRowEncodes h (m, 0xe003#16, c, i) :=
  quadrantRow hm fun h3 hq hc => ⟨hwf hc, hi.trans (congrArg _ (encCi_fields h3 hq))⟩

theorem rowCj (hwf : i.wellFormed = true) (hi : encode i = .half (encCj f3 (cImmJ h)))
    (hm : m = encC5 f3 0#1 0#5 0#5 0b01#2) : HalfRowEncodes h (m, 0xe003#16, c, i) :=
  quadrantRow hm fun h3 hq _ => ⟨hwf, hi.trans (congrArg _ (encCj_fields h3 hq))⟩

theorem rowCb (hwf : i.wellFormed = true) (hi : encode i = .half (encCb f3 (cImmB h) (cHigh h)))
    (hm : m = encC5 f3 0#1 0#5 0#5 0b01#2) : HalfRowEncodes h (m, 0xe003#16, c, i) :=
  quadrantRow hm fun h3 hq _ => ⟨hwf, hi.trans (congrArg _ (encCb_fields h3 hq))⟩

/-- C.SRLI and C.SRAI. -/
theorem rowCbShift {op : BitVec 2} (hwf : i.wellFormed = true)
    (hi : encode i = .half (encCbAlu 0#1 op (cHigh h) (cRs2 h)))
    (hm : m = encC3 0b100#3 (0#1 ++ op) 0#3 0#2 0#3 0b01#2) : HalfRowEncodes h (m, 0xfc03#16, c, i) := fun hmatch _ => by
  obtain ⟨h3, h12, rfl, hq⟩ := and_shiftForm_iff.1 (Eq.trans hmatch hm)
  exact ⟨hwf, hi.trans (congrArg _ (h12 ▸ encCbAlu_fields h3 hq))⟩

theorem rowCa {op : BitVec 2} (hwf : i.wellFormed = true) (hi : encode i = .half (encCa op (cHigh h) (cLow h)))
    (hm : m = encC3 0b100#3 (0#1 ++ 0b11#2) 0#3 op 0#3 0b01#2) :
    HalfRowEncodes h (m, 0xfc63#16, c, i) := fun hmatch _ => by
  obtain ⟨h3, h12, h10, rfl, hq⟩ := and_caForm_iff.1 (Eq.trans hmatch hm)
  exact ⟨hwf, hi.trans (congrArg _ (encCa_fields h3 h12 h10 hq))⟩

/-- The rows of C.SLLI, C.MV and C.ADD. -/
theorem rowCr {b12 : BitVec 1} (hwf : c = true → i.wellFormed = true)
    (hi : encode i = .half (encC5 f3 b12 (cRd h) (cRs2 h) q)) (hm : m = encC5 f3 b12 0#5 0#5 q) :
    HalfRowEncodes h (m, 0xf003#16, c, i) := fun hmatch hc => by
  obtain ⟨rfl, rfl, rfl⟩ := and_cBit12_iff.1 (Eq.trans hmatch hm)
  exact ⟨hwf hc, hi.trans (congrArg _ encC5_fields)⟩

/-- The rows of C.JR and C.JALR, with rs2 = 0. -/
theorem rowCrJump {b12 : BitVec 1} (hwf : c = true → i.wellFormed = true)
    (hi : encode i = .half (encC5 f3 b12 (cRd h) 0#5 q)) (hm : m = encC5 f3 b12 0#5 0#5 q) :
    HalfRowEncodes h (m, 0xf07f#16, c, i) := fun hmatch hc => by
  obtain ⟨rfl, rfl, h2, rfl⟩ := and_cRs2_iff.1 (Eq.trans hmatch hm)
  exact ⟨hwf hc, hi.trans (congrArg _ (h2 ▸ encC5_fields))⟩

end

section
variable (h : Half)

theorem row_cAddi4spn :
    HalfRowEncodes h (0x0000#16, 0xe003#16, h.extractLsb' 5 8 != 0#8, .cAddi4spn (cLow h) (cImmSpn h)) :=
  quadrantRow (f3 := 0b000#3) (q := 0b00#2) rfl fun h3 hq hc => by
    have hnz : cImmSpn h ≠ 0#10 := mt cImmSpn_eq_zero_iff.1 (bne_iff_ne.1 hc)
    have hal : offsetAligned (cImmSpn h) 2 = true := offsetAligned_append _ 2
    exact ⟨by simp [Instr.wellFormed, hnz, hal], congrArg _ (encCiw_fields h3 hq)⟩

theorem row_cNop : HalfRowEncodes h (0x0001#16, 0xef83#16, true, .cNop (cImm6 h)) := fun hmatch _ => by
  obtain ⟨h3, hd, hq⟩ := (and_cRd_iff (f3 := 0b000#3) (rd := 0#5) (q := 0b01#2)).1 hmatch
  exact ⟨rfl, congrArg RawInsn.half (hd ▸ encCi_fields h3 hq)⟩

theorem row_cAddi16sp : HalfRowEncodes h (0x6101#16, 0xef83#16, cImm6 h != 0#6, .cAddi16sp (cImm16sp h)) :=
  fun hmatch hc => by
    obtain ⟨h3, hd, hq⟩ := (and_cRd_iff (f3 := 0b011#3) (rd := 2#5) (q := 0b01#2)).1 hmatch
    have hnz : cImm16sp h ≠ 0#10 := mt cImm6_eq_zero_of_cImm16sp (bne_iff_ne.1 hc)
    have hal : offsetAligned (cImm16sp h) 4 = true := offsetAligned_append _ 4
    exact ⟨by simp [Instr.wellFormed, hnz, hal], congrArg RawInsn.half (encC5_cImm16sp h3 hd hq)⟩

theorem row_cAndi : HalfRowEncodes h (0x8801#16, 0xec03#16, true, .cAndi (cHigh h) (cImm6 h)) := fun hmatch _ => by
  obtain ⟨h3, h10, hq⟩ := (and_andiForm_iff (f3 := 0b100#3) (op := 0b10#2) (q := 0b01#2)).1 hmatch
  have h5 : (cImm6 h).extractLsb' 5 1 = cBit12 h := BitVec.extractLsb'_append_eq_left
  have h0 : (cImm6 h).extractLsb' 0 5 = cRs2 h := BitVec.extractLsb'_append_eq_right
  refine ⟨cHigh_isCompressed h, congrArg RawInsn.half ?_⟩
  rw [h5, h0]
  exact h10 ▸ encCbAlu_fields h3 hq

theorem row_cLwsp : HalfRowEncodes h (0x4002#16, 0xe003#16, cRd h != 0#5, .cLwsp (cRd h) (cImmLwsp h)) :=
  quadrantRow (f3 := 0b010#3) (q := 0b10#2) rfl fun h3 hq hc => by
    have hal : offsetAligned (cImmLwsp h) 2 = true := offsetAligned_append _ 2
    exact ⟨by simp [Instr.wellFormed, bne_iff_ne.1 hc, hal], congrArg _ (encC5_cImmLwsp h3 hq)⟩

theorem row_cSwsp : HalfRowEncodes h (0xc002#16, 0xe003#16, true, .cSwsp (cRs2 h) (cImmSwsp h)) :=
  quadrantRow (f3 := 0b110#3) (q := 0b10#2) rfl fun h3 hq _ =>
    ⟨offsetAligned_append _ 2, congrArg _ (encC5_cImmSwsp h3 hq)⟩

/-- The format of each row, in the order of the table; likewise in the list below. -/
theorem halfRows1_encode : ∀ r ∈ Spec.halfRows1 h, HalfRowEncodes h r := by
  have hal : offsetAligned (cImmLs h) 2 = true := offsetAligned_append _ 2
  have hls : ((cLow h).isCompressed && (cHigh h).isCompressed && offsetAligned (cImmLs h) 2) = true := by simp [hal]
  have hj : offsetAligned (cImmJ h) 1 = true := offsetAligned_append _ 1
  have hca : ((cHigh h).isCompressed && (cLow h).isCompressed) = true := by simp
  simp only [Spec.halfRows1, List.forall_mem_cons]
  exact ⟨wholeRow rfl rfl, row_cAddi4spn h, rowCls hls rfl rfl, rowCls hls rfl rfl, row_cNop h, rowCi id rfl rfl,
    rowCj hj rfl rfl, rowCi id rfl rfl, row_cAddi16sp h, rowCi id rfl rfl, rowCbShift (cHigh_isCompressed h) rfl rfl,
    rowCbShift (cHigh_isCompressed h) rfl rfl, row_cAndi h, rowCa hca rfl rfl, List.forall_mem_nil _⟩

theorem halfRows2_encode : ∀ r ∈ Spec.halfRows2 h, HalfRowEncodes h r := by
  have hca : ((cHigh h).isCompressed && (cLow h).isCompressed) = true := by simp
  have hj : offsetAligned (cImmJ h) 1 = true := offsetAligned_append _ 1
  have hal : offsetAligned (cImmB h) 1 = true := offsetAligned_append _ 1
  have hb : ((cHigh h).isCompressed && offsetAligned (cImmB h) 1) = true := by simp [hal]
  simp only [Spec.halfRows2, List.forall_mem_cons]
  exact ⟨rowCa hca rfl rfl, rowCa hca rfl rfl, rowCa hca rfl rfl, rowCj hj rfl rfl, rowCb hb rfl rfl, rowCb hb rfl rfl,
    rowCr (fun _ => rfl) rfl rfl, row_cLwsp h, rowCrJump id rfl rfl, rowCr id rfl rfl, wholeRow rfl rfl,
    rowCrJump id rfl rfl, rowCr id rfl rfl, row_cSwsp h, List.forall_mem_nil _⟩

theorem halfRows_encode : ∀ r ∈ Spec.halfRows h, HalfRowEncodes h r := by
  rw [Spec.halfRows, List.forall_mem_append]
  exact ⟨halfRows1_encode h, halfRows2_encode h⟩

end

/-! ## A halfword that decodes matches a row -/

/-- The halfword matches a row whose instruction is `i`, its constraint included. -/
def MatchesHalfRow (h : Half) (i : Instr) : Prop := ∃ m k, (m, k, true, i) ∈ Spec.halfRows h ∧ h &&& k = m

section
variable {h : Half} {i : Instr} {f3 : BitVec 3} {q : BitVec 2}

theorem matches_of_quadrant (hq : cQuadrant h = q) (h3 : cFunct3 h = f3)
    (hmem : (encC5 f3 0#1 0#5 0#5 q, 0xe003#16, true, i) ∈ Spec.halfRows h) : MatchesHalfRow h i :=
  ⟨_, _, hmem, and_cFunct3_iff.2 ⟨h3, hq⟩⟩

theorem matches_of_rd {rd : Reg} (hq : cQuadrant h = q) (h3 : cFunct3 h = f3) (hd : cRd h = rd)
    (hmem : (encC5 f3 0#1 rd 0#5 q, 0xef83#16, true, i) ∈ Spec.halfRows h) : MatchesHalfRow h i :=
  ⟨_, _, hmem, and_cRd_iff.2 ⟨h3, hd, hq⟩⟩

theorem matches_of_bit12 {b12 : BitVec 1} (hq : cQuadrant h = q) (h3 : cFunct3 h = f3) (h12 : cBit12 h = b12)
    (hmem : (encC5 f3 b12 0#5 0#5 q, 0xf003#16, true, i) ∈ Spec.halfRows h) : MatchesHalfRow h i :=
  ⟨_, _, hmem, and_cBit12_iff.2 ⟨h3, h12, hq⟩⟩

theorem matches_of_bit12_rs2 {b12 : BitVec 1} {rs2 : Reg} (hq : cQuadrant h = q) (h3 : cFunct3 h = f3)
    (h12 : cBit12 h = b12) (h2 : cRs2 h = rs2)
    (hmem : (encC5 f3 b12 0#5 rs2 q, 0xf07f#16, true, i) ∈ Spec.halfRows h) : MatchesHalfRow h i :=
  ⟨_, _, hmem, and_cRs2_iff.2 ⟨h3, h12, h2, hq⟩⟩

/-- C.SRLI and C.SRAI. -/
theorem matches_of_shift {b12 : BitVec 1} {op : BitVec 2} (hq : cQuadrant h = q) (h3 : cFunct3 h = f3)
    (h12 : cBit12 h = b12) (h10 : h.extractLsb' 10 2 = op)
    (hmem : (encC3 f3 (b12 ++ op) 0#3 0#2 0#3 q, 0xfc03#16, true, i) ∈ Spec.halfRows h) : MatchesHalfRow h i :=
  ⟨_, _, hmem, and_shiftForm_iff.2 ⟨h3, h12, h10, hq⟩⟩

/-- C.SUB, C.XOR, C.OR and C.AND. -/
theorem matches_of_ca {b12 : BitVec 1} {op two : BitVec 2} (hq : cQuadrant h = q) (h3 : cFunct3 h = f3)
    (h12 : cBit12 h = b12) (h10 : h.extractLsb' 10 2 = op) (h5 : h.extractLsb' 5 2 = two)
    (hmem : (encC3 f3 (b12 ++ op) 0#3 two 0#3 q, 0xfc63#16, true, i) ∈ Spec.halfRows h) : MatchesHalfRow h i :=
  ⟨_, _, hmem, and_caForm_iff.2 ⟨h3, h12, h10, h5, hq⟩⟩

theorem decodeQ0_matches (hq : cQuadrant h = 0b00#2) (hd : decodeQ0 h = .ok i) : MatchesHalfRow h i := by
  unfold decodeQ0 at hd
  split at hd
  case h_1 h3 =>
    split_ifs at hd with h0 hnz
    · cases hd
      exact ⟨0#16, 0xffff#16, by simp [Spec.halfRows, Spec.halfRows1], BitVec.and_allOnes.trans h0⟩
    · cases hd
      have hnz' : h.extractLsb' 5 8 ≠ 0#8 := mt cImmSpn_eq_zero_iff.2 hnz
      exact matches_of_quadrant hq h3 (by simp [Spec.halfRows, Spec.halfRows1, encC5, cLow, cImmSpn, hnz'])
  all_goals cases hd
  all_goals
    exact matches_of_quadrant hq ‹_› (by simp [Spec.halfRows, Spec.halfRows1, encC5, cLow, cHigh, cImmLs])

theorem eq_three_of_ne {b : BitVec 2} (h0 : b ≠ 0b00#2) (h1 : b ≠ 0b01#2) (h2 : b ≠ 0b10#2) : b = 0b11#2 := by
  revert b; decide

theorem decodeQ1Alu_matches (hq : cQuadrant h = 0b01#2) (h3 : cFunct3 h = 0b100#3) (hd : decodeQ1Alu h = .ok i) :
    MatchesHalfRow h i := by
  unfold decodeQ1Alu at hd
  split at hd
  case h_1 h10 =>
    split_ifs at hd with h12
    cases hd
    exact matches_of_shift hq h3 h12 h10 (by simp [Spec.halfRows, Spec.halfRows1, encC3, cHigh, cRs2])
  case h_2 h10 =>
    split_ifs at hd with h12
    cases hd
    exact matches_of_shift hq h3 h12 h10 (by simp [Spec.halfRows, Spec.halfRows1, encC3, cHigh, cRs2])
  case h_3 h10 =>
    cases hd
    exact ⟨0x8801#16, 0xec03#16, by simp [Spec.halfRows, Spec.halfRows1, cHigh, cImm6],
      and_andiForm_iff.2 ⟨h3, h10, hq⟩⟩
  case h_4 h0 h1 h2 =>
    split_ifs at hd with h12
    split at hd
    case h_4 g0 g1 g2 =>
      cases hd
      exact matches_of_ca hq h3 h12 (eq_three_of_ne h0 h1 h2) (eq_three_of_ne g0 g1 g2)
        (by simp [Spec.halfRows, Spec.halfRows2, encC3, cHigh, cLow])
    all_goals
      cases hd
      exact matches_of_ca hq h3 h12 (eq_three_of_ne h0 h1 h2) ‹_›
        (by simp [Spec.halfRows, Spec.halfRows1, Spec.halfRows2, encC3, cHigh, cLow])

theorem decodeQ1_matches (hq : cQuadrant h = 0b01#2) (hd : decodeQ1 h = .ok i) : MatchesHalfRow h i := by
  unfold decodeQ1 at hd
  split at hd
  case h_1 h3 =>
    split_ifs at hd with hrd
    · cases hd
      exact matches_of_rd hq h3 hrd (by simp [Spec.halfRows, Spec.halfRows1, encC5, cImm6])
    · cases hd
      have hrd' : h.extractLsb' 7 5 ≠ 0#5 := hrd
      exact matches_of_quadrant hq h3 (by simp [Spec.halfRows, Spec.halfRows1, encC5, cRd, cImm6, hrd'])
  case h_4 h3 =>
    split_ifs at hd with hnz hrd
    · cases hd
      have hnz' : h.extractLsb' 12 1 ++ h.extractLsb' 2 5 ≠ 0#6 := hnz
      exact matches_of_rd hq h3 hrd (by simp [Spec.halfRows, Spec.halfRows1, encC5, cImm16sp, hnz'])
    · cases hd
      have hnz' : h.extractLsb' 12 1 ++ h.extractLsb' 2 5 ≠ 0#6 := hnz
      have hrd' : h.extractLsb' 7 5 ≠ 2#5 := hrd
      exact matches_of_quadrant hq h3 (by simp [Spec.halfRows, Spec.halfRows1, encC5, cRd, cImm6, hnz', hrd'])
  case h_5 h3 => exact decodeQ1Alu_matches hq h3 hd
  case h_8 n0 n1 n2 n3 n4 n5 n6 =>
    have h3 : cFunct3 h = 0b111#3 := by
      generalize cFunct3 h = f at *
      revert f; decide
    cases hd
    exact matches_of_quadrant hq h3 (by simp [Spec.halfRows, Spec.halfRows2, encC5, cHigh, cImmB])
  all_goals
    cases hd
    exact matches_of_quadrant hq ‹_›
      (by simp [Spec.halfRows, Spec.halfRows1, Spec.halfRows2, encC5, cRd, cImm6, cHigh, cImmB, cImmJ])

theorem decodeQ2Jump_matches (hq : cQuadrant h = 0b10#2) (h3 : cFunct3 h = 0b100#3) (hd : decodeQ2Jump h = .ok i) :
    MatchesHalfRow h i := by
  have hrs2 : cRs2 h ≠ 0#5 → h.extractLsb' 2 5 ≠ 0#5 := id
  have hrd : cRd h ≠ 0#5 → h.extractLsb' 7 5 ≠ 0#5 := id
  unfold decodeQ2Jump at hd
  split_ifs at hd with h12 h2 h1 h2 h1
  · cases hd
    exact matches_of_bit12_rs2 hq h3 h12 h2 (by simp [Spec.halfRows, Spec.halfRows2, encC5, cRd, hrd h1])
  · cases hd
    exact matches_of_bit12 hq h3 h12 (by simp [Spec.halfRows, Spec.halfRows2, encC5, cRd, cRs2, hrs2 h2])
  all_goals
    have h12' : cBit12 h = 1#1 := by
      generalize cBit12 h = b at h12
      revert b; decide
  · cases hd
    have hwhole : h = 0x9002#16 := by rw [← encC5_fields (h := h), h3, h12', h1, h2, hq]; rfl
    exact ⟨0x9002#16, 0xffff#16, by simp [Spec.halfRows, Spec.halfRows2], BitVec.and_allOnes.trans hwhole⟩
  · cases hd
    exact matches_of_bit12_rs2 hq h3 h12' h2 (by simp [Spec.halfRows, Spec.halfRows2, encC5, cRd, hrd h1])
  · cases hd
    exact matches_of_bit12 hq h3 h12' (by simp [Spec.halfRows, Spec.halfRows2, encC5, cRd, cRs2, hrs2 h2])

theorem decodeQ2_matches (hq : cQuadrant h = 0b10#2) (hd : decodeQ2 h = .ok i) : MatchesHalfRow h i := by
  unfold decodeQ2 at hd
  split at hd
  case h_1 h3 =>
    split_ifs at hd with h12
    cases hd
    exact matches_of_bit12 hq h3 h12 (by simp [Spec.halfRows, Spec.halfRows2, encC5, cRd, cRs2])
  case h_2 h3 =>
    split_ifs at hd with hrd
    cases hd
    have hrd' : h.extractLsb' 7 5 ≠ 0#5 := hrd
    exact matches_of_quadrant hq h3 (by simp [Spec.halfRows, Spec.halfRows2, encC5, cRd, cImmLwsp, hrd'])
  case h_3 h3 => exact decodeQ2Jump_matches hq h3 hd
  all_goals cases hd
  all_goals
    exact matches_of_quadrant hq ‹_› (by simp [Spec.halfRows, Spec.halfRows2, encC5, cRs2, cImmSwsp])

theorem decode16_matches (hd : decode16 h = .ok i) : MatchesHalfRow h i := by
  unfold decode16 at hd
  split at hd
  next hq => exact decodeQ0_matches hq hd
  next hq => exact decodeQ1_matches hq hd
  next hq => exact decodeQ2_matches hq hd
  next => cases hd

end

end Sys2Proof
end

section
/-! The decoder reads the encoding of a well-formed instruction back, and the round trips between bits, bytes and
instructions (R170, R171, R185). -/

namespace Sys2Proof

/-! ## 32-bit instructions -/

/-- Every implemented major opcode ends in 11 (R171, R177). -/
theorem low_of_decode32 {w : Word} {i : Instr} (h : decode32 w = .ok i) : w.extractLsb' 0 2 = 3#2 := by
  have hlow : w.extractLsb' 0 2 = (fOpcode w).extractLsb' 0 2 := (BitVec.extractLsb'_extractLsb'_of_le (by decide)).symm
  unfold decode32 at h
  split at h
  case h_13 => cases h
  all_goals
    rename_i hop
    rw [hlow, hop]
    rfl

theorem decodeRaw_word {w : Word} {i : Instr} : decodeRaw (.word w) = .ok i ↔ decode32 w = .ok i := by
  rw [show decodeRaw (.word w) = if w.extractLsb' 0 2 = 3#2 then decode32 w else .error .majorOpcode from rfl]
  constructor
  · intro h
    split_ifs at h
    exact h
  · intro h
    rw [if_pos (low_of_decode32 h), h]

theorem decodeMiscMem_fence (fm pred succ : BitVec 4) (rs1 rd : Reg) (op : BitVec 7) :
    decodeMiscMem (encI (fm ++ pred ++ succ) rs1 0b000#3 rd op) = .ok (.fence fm pred succ rs1 rd) := by
  have hfields : (encI (fm ++ pred ++ succ) rs1 0b000#3 rd op).extractLsb' 28 4 = fm ∧
      (encI (fm ++ pred ++ succ) rs1 0b000#3 rd op).extractLsb' 24 4 = pred ∧
      (encI (fm ++ pred ++ succ) rs1 0b000#3 rd op).extractLsb' 20 4 = succ := by
    unfold encI
    simp (disch := decide) only [Nat.reduceSub, BitVec.extractLsb'_append_eq_of_add_le,
      BitVec.extractLsb'_append_eq_of_le, BitVec.extractLsb'_eq_self, and_self]
  simp [decodeMiscMem, hfields]

theorem decodeSystemWord_sfenceVma (rs1 rs2 : Reg) :
    decodeSystemWord (encR 0b0001001#7 rs2 rs1 0b000#3 0#5 0b1110011#7) = .ok (.sfenceVma rs1 rs2) := by
  have hne (v : Word) (h : fFunct7 v ≠ 0b0001001#7) : encR 0b0001001#7 rs2 rs1 0b000#3 0#5 0b1110011#7 ≠ v := by
    rintro rfl
    simp at h
  unfold decodeSystemWord
  rw [if_neg (hne _ (by decide)), if_neg (hne _ (by decide)), if_neg (hne _ (by decide)), if_neg (hne _ (by decide)),
    if_neg (hne _ (by decide)), if_neg (hne _ (by decide))]
  simp

/-- The decoder reads the encoding of a well-formed 32-bit instruction back, by its major opcode. -/
theorem decode32_encode {i : Instr} {w : Word} (hwf : i.wellFormed = true) (h : encode i = .word w) :
    decode32 w = .ok i := by
  cases i with
  | lui | auipc | jalr => cases h; simp [decode32]
  | jal => cases h; simp_all [decode32, Instr.wellFormed]
  | beq | bne | blt | bge | bltu | bgeu => cases h; simp_all [decode32, decodeBranch, Instr.wellFormed]
  | lb | lh | lw | lbu | lhu => cases h; simp [decode32, decodeLoad]
  | sb | sh | sw => cases h; simp [decode32, decodeStore]
  | addi | slti | sltiu | xori | ori | andi | slli | srli | srai => cases h; simp [decode32, decodeOpImm]
  | add | sub | sll | slt | sltu | xor | srl | sra | or | and | mul | mulh | mulhsu | mulhu | div | divu | rem | remu =>
    cases h; simp [decode32, decodeOp]
  | fence => cases h; simp [decode32, decodeMiscMem_fence]
  | fenceI => cases h; simp [decode32, decodeMiscMem]
  | ecall | ebreak | uret | sret | mret | wfi => cases h; rfl
  | sfenceVma => cases h; simp [decode32, decodeSystem, decodeSystemWord_sfenceVma]
  | csrrw | csrrs | csrrc | csrrwi | csrrsi | csrrci =>
    cases h; simp [decode32, decodeSystem, show fCsr = immI from rfl]
  | lrW | scW | amoswapW | amoaddW | amoxorW | amoandW | amoorW | amominW | amomaxW | amominuW | amomaxuW =>
    cases h; simp [decode32, decodeAmo]
  | _ => cases h

/-! ## 16-bit instructions -/
/-- The decoder reads the encoding of a well-formed 16-bit instruction back, by quadrant and funct3. -/
theorem decode16_encode {i : Instr} {b : Half} (hwf : i.wellFormed = true) (h : encode i = .half b) :
    decode16 b = .ok i := by
  cases i with
  | cIllegal | cEbreak => cases h; rfl
  | cAddi4spn rd imm =>
    cases h
    simp only [Instr.wellFormed, Bool.and_eq_true, bne_iff_ne] at hwf
    obtain ⟨⟨hrd, hal⟩, hnz⟩ := hwf
    have himm := cImmSpn_encCiw hal rd
    have hne : encCiw imm rd ≠ 0#16 := fun h0 => hnz (himm.symm.trans (congrArg cImmSpn h0))
    simp [decode16, decodeQ0, hne, himm, hnz, hrd]
  | cLw | cSw =>
    cases h
    simp_all [Instr.wellFormed, decode16, decodeQ0]
  | cNop => cases h; simp [decode16, decodeQ1]
  | cAddi | cLi => cases h; simp_all [Instr.wellFormed, decode16, decodeQ1]
  | cJal | cJ => cases h; simp_all [Instr.wellFormed, decode16, decodeQ1]
  | cAddi16sp imm =>
    cases h
    simp only [Instr.wellFormed, Bool.and_eq_true, bne_iff_ne] at hwf
    obtain ⟨hal, hnz⟩ := hwf
    have himm := cImm16sp_encC5 0b011#3 0b01#2 2#5 hal
    have hne := fun h0 => hnz (himm.symm.trans (cImm16sp_eq_zero_of_cImm6 h0))
    simpa [decode16, decodeQ1, himm] using hne
  | cLui => cases h; simp_all [Instr.wellFormed, decode16, decodeQ1]
  | cBeqz | cBnez => cases h; simp_all [Instr.wellFormed, decode16, decodeQ1]
  | cSrli | cSrai | cAndi | cSub | cXor | cOr | cAnd =>
    cases h; simp_all [Instr.wellFormed, decode16, decodeQ1, decodeQ1Alu]
  | cSlli => cases h; simp_all [Instr.wellFormed, decode16, decodeQ2]
  | cLwsp => cases h; simp_all [Instr.wellFormed, decode16, decodeQ2]
  | cJr | cMv | cJalr | cAdd => cases h; simp_all [Instr.wellFormed, decode16, decodeQ2, decodeQ2Jump]
  | cSwsp => cases h; simp_all [Instr.wellFormed, decode16, decodeQ2]
  | _ => cases h

/-! ## Round trips -/

theorem decodeRaw_encode {i : Instr} (hwf : i.wellFormed = true) : decodeRaw (encode i) = .ok i := by
  cases h : encode i with
  | half b => exact decode16_encode hwf h
  | word w => exact decodeRaw_word.2 (decode32_encode hwf h)

/-- No 16-bit instruction has 11 in its low bits (R171). -/
theorem cQuadrant_of_decode16 {b : Half} {i : Instr} (h : decode16 b = .ok i) : cQuadrant b ≠ 3#2 := by
  intro hq
  unfold decode16 at h
  rw [hq] at h
  cases h

/-- The decoder reads as many bytes as the instruction has, lowest address first (R100, R171). -/
theorem decodeBytes_rawBytes {raw : RawInsn} {i : Instr} (h : decodeRaw raw = .ok i) (rest : List Byte) :
    decodeBytes (Spec.rawBytes raw ++ rest) = .ok (i, rest) := by
  cases raw with
  | half b =>
    have hb : (b.extractLsb' 8 8 ++ b.extractLsb' 0 8 : Half) = b := BitVec.extractLsb'_append_extractLsb'
    have hq := cQuadrant_of_decode16 h
    simp only [Spec.rawBytes, List.cons_append, List.nil_append, decodeBytes]
    rw [hb, if_neg hq, h]
  | word w =>
    have hlo : (w.extractLsb' 8 8 ++ w.extractLsb' 0 8 : Half) = w.extractLsb' 0 16 :=
      BitVec.extractLsb'_append_extractLsb'_eq_extractLsb' (x := w) (start₁ := 0) (len₁ := 8) rfl
    have hw : (w.extractLsb' 24 8 ++ w.extractLsb' 16 8 ++ w.extractLsb' 8 8 ++ w.extractLsb' 0 8 : Word) = w := by
      simp (disch := decide) only [BitVec.extractLsb'_append_extractLsb'_eq_extractLsb', BitVec.extractLsb'_eq_self]
    have hq : cQuadrant (w.extractLsb' 0 16) = 3#2 :=
      (BitVec.extractLsb'_extractLsb'_of_le (by decide)).trans (low_of_decode32 (decodeRaw_word.1 h))
    simp only [Spec.rawBytes, List.cons_append, List.nil_append, decodeBytes]
    rw [hlo, if_pos hq, hw, h]

/-- Settles O11: the decoder reads the encoding back format by format, and its bytes are put together in order. -/
theorem decodeEncode : Obligations.DecodeEncode := fun _ rest hwf =>
  ⟨decodeRaw_encode hwf, decodeBytes_rawBytes (decodeRaw_encode hwf) rest⟩

/-- Settles O12: what decodes matches a row of the table, and a row is the encoding of its instruction. -/
theorem encodeDecode : Obligations.EncodeDecode := by
  intro raw i h
  cases raw with
  | half b =>
    obtain ⟨m, k, hmem, hmatch⟩ := decode16_matches h
    exact halfRows_encode b _ hmem hmatch rfl
  | word w =>
    obtain ⟨m, k, hmem, hmatch⟩ := decode32_matches (decodeRaw_word.1 h)
    exact wordRows_encode w _ hmem hmatch

/-- Settles O13: a row is the encoding of its instruction, which decodes to it; and what decodes matches a row. -/
theorem opcodeTable : Obligations.OpcodeTable := by
  refine ⟨fun w m k i hmem hmatch => ?_, fun w i h => decode32_matches (decodeRaw_word.1 h),
    fun h m k c i hmem hmatch hc => ?_, fun h i hd => decode16_matches hd⟩
  · obtain ⟨hwf, henc⟩ := wordRows_encode w _ hmem hmatch
    exact henc ▸ decodeRaw_encode hwf
  · obtain ⟨hwf, henc⟩ := halfRows_encode h _ hmem hmatch hc
    exact henc ▸ decodeRaw_encode hwf

end Sys2Proof
end

section
/-! The fetch of an instruction, halfword by halfword, and the traps of a fetch that raises and of an encoding that stands
for no instruction (R117, R170, R180, R379). -/

namespace Sys2Proof.Machine

/-! ## One halfword (R117, R170) -/

theorem readBytes_half (m : Memory) (a : Nat) : (readBytes m a 2).extractLsb' 0 16 = Spec.half m a := by
  apply BitVec.eq_of_getLsbD_eq
  intro i hi
  simp only [readBytes, Spec.half, zext, BitVec.getLsbD_or, BitVec.getLsbD_shiftLeft, BitVec.truncate_eq_setWidth,
    BitVec.getLsbD_setWidth, BitVec.getLsbD_zero, BitVec.getLsbD_append, BitVec.getLsbD_extractLsb']
  interval_cases i <;> simp

section
variable {va : Word} {s s1 s3 : State} {pa : PhysAddr} {e : Exception} {tv : Word}

/-- A translation that raises reports the address of the halfword. -/
theorem fetch16_of_raise (h : Machine.translate va .fetch s = .raise e tv s1) : fetch16 va s = .raise e va s1 := by
  obtain ⟨-, rfl, -⟩ := translate_raise h
  rw [fetch16, h]; rfl

theorem fetch16_of_not_inRam (h : Machine.translate va .fetch s = .ok pa s1) (hr : inRam s.cfg pa 2 = false) :
    fetch16 va s = .raise .instructionAccessFault va s1 := by
  rw [← (translate_private h).cfg] at hr
  rw [fetch16, h, Access.andThen, physFetch16, hr]; rfl

theorem fetch16_of_inRam (h : Machine.translate va .fetch s = .ok pa s1) (hr : inRam s.cfg pa 2 = true) :
    fetch16 va s = .ok (Spec.half (interleave s1).mem pa.toNat) (interleave s1) := by
  rw [← (translate_private h).cfg] at hr
  rw [fetch16, h, Access.andThen, physFetch16, if_pos hr, readBytes_half]

/-! ## The instruction -/

theorem fetchInstruction_of_first_raise (h : fetch16 s.pc s = .raise e tv s1) : fetchInstruction s = .raise e tv s1 := by
  rw [fetchInstruction, h]; rfl

theorem fetchInstruction_of_second_raise {lo : Half} (h : fetch16 s.pc s = .ok lo s1) (hlo : cQuadrant lo = 3#2)
    (h2 : fetch16 (s.pc + 2#32) s1 = .raise e tv s3) : fetchInstruction s = .raise e tv s3 := by
  rw [fetchInstruction, h, Access.andThen, if_pos hlo, h2]; rfl

/-- A fetch that raises is the trap of the instruction at pc, and what was done before remains (R12, R470). -/
theorem runInstruction_traps (h : fetchInstruction s = .raise e tv s1) :
    Spec.Traps (runInstruction s) e.code tv s s1 := by
  have hr := fetchInstruction_reaches s
  rw [h] at hr
  rw [runInstruction, h]
  exact raiseException_traps hr.core e tv

end

/-- Settles O17: a halfword that raises or stands outside RAM ends the fetch, the second after the first. -/
theorem fetchFaults : Obligations.FetchFaults := by
  refine fun s => ⟨fun e tv s1 ht => ?_, fun pa s1 ht hr => ?_, fun pa s1 ht hr hlo => ⟨fun e tv s3 ht2 => ?_,
    fun pb s3 ht2 hr2 => ?_⟩⟩
  · exact runInstruction_traps (fetchInstruction_of_first_raise (fetch16_of_raise ht))
  · exact runInstruction_traps (fetchInstruction_of_first_raise (fetch16_of_not_inRam ht hr))
  · exact runInstruction_traps (fetchInstruction_of_second_raise (fetch16_of_inRam ht hr) hlo (fetch16_of_raise ht2))
  · have hcfg : (interleave s1).cfg = s.cfg := (interleave_cfg s1).trans (translate_private ht).cfg
    rw [← hcfg] at hr2
    exact runInstruction_traps
      (fetchInstruction_of_second_raise (fetch16_of_inRam ht hr) hlo (fetch16_of_not_inRam ht2 hr2))

/-- Settles O18: the bits that do not decode are the trap's value, and C.ILLEGAL traps by itself. -/
theorem illegalEncodingsTrap : Obligations.IllegalEncodingsTrap := by
  refine ⟨fun s s1 raw e hf hd => ?_, fun s => raiseException_traps (.refl s) .illegalInstruction 0#32⟩
  have hc := (reaches_of_ok (fetchInstruction_reaches s) hf).core
  simp only [runInstruction, hf, hd]
  cases raw with
  | half h => exact raiseException_traps hc .illegalInstruction _
  | word w => exact raiseException_traps hc .illegalInstruction _

end Sys2Proof.Machine
end

section
/-! The RV32I integer instructions (R200 to R222): the words of the specification as integers modulo 2^32, and the
instructions that compute a word and write it to a register. -/

namespace Sys2Proof.Machine

/-! ## Integers modulo 2^32 (R200) -/

theorem word_toInt (x : Word) : Spec.word x.toInt = x := BitVec.ofInt_toInt

theorem word_toNat (x : Word) : Spec.word x.toNat = x := by
  rw [Spec.word, BitVec.ofInt_natCast, BitVec.ofNat_toNat, BitVec.setWidth_eq]

/-- An immediate as an integer is its sign extension. -/
theorem word_toInt_sext {n : Nat} (imm : BitVec n) : Spec.word imm.toInt = sext imm := rfl

theorem word_add (m n : Int) : Spec.word (m + n) = Spec.word m + Spec.word n := BitVec.ofInt_add m n

theorem word_sub (m n : Int) : Spec.word (m - n) = Spec.word m - Spec.word n := by
  rw [Int.sub_eq_add_neg, word_add, BitVec.sub_eq_add_neg, Spec.word, Spec.word, Spec.word, BitVec.ofInt_neg]

theorem word_toInt_add (x y : Word) : Spec.word (x.toInt + y.toInt) = x + y := by
  rw [word_add, word_toInt, word_toInt]

theorem word_toInt_sub (x y : Word) : Spec.word (x.toInt - y.toInt) = x - y := by
  rw [word_sub, word_toInt, word_toInt]

theorem word_toInt_add_sext {n : Nat} (x : Word) (imm : BitVec n) : Spec.word (x.toInt + imm.toInt) = x + sext imm := by
  rw [word_add, word_toInt, word_toInt_sext]

/-- The upper immediate is its 20 bits with twelve zeros below (R201, R202). -/
theorem word_upperImm (imm : BitVec 20) : Spec.word (imm.toNat * 4096) = upperImm imm := by
  have h : (upperImm imm).toNat = imm.toNat * 4096 := by
    rw [upperImm, BitVec.toNat_append, Nat.shiftLeft_eq]; exact Nat.or_zero _
  rw [← word_toNat (upperImm imm), h, Int.natCast_mul]
  rfl

theorem word_toNat_add_upperImm (x : Word) (imm : BitVec 20) :
    Spec.word (x.toNat + imm.toNat * 4096) = x + upperImm imm := by
  rw [word_add, word_toNat, word_upperImm]

/-! ## Shifts (R209 to R211, R222) -/

theorem word_shiftLeft (x : Word) (n : Nat) : Spec.word (x.toNat * 2 ^ n) = x <<< n := by
  have h : (x.toNat : Int) * 2 ^ n = ((x.toNat <<< n : Nat) : Int) := by simp [Nat.shiftLeft_eq]
  rw [h, Spec.word, BitVec.ofInt_natCast]
  rfl

theorem word_ushiftRight (x : Word) (n : Nat) : Spec.word (x.toNat / 2 ^ n) = x >>> n := by
  have h : (x.toNat : Int) / 2 ^ n = ((x >>> n).toNat : Int) := by simp [Nat.shiftRight_eq_div_pow]
  rw [h, word_toNat]

theorem word_sshiftRight (x : Word) (n : Nat) : Spec.word (x.toInt / 2 ^ n) = x.sshiftRight n := by
  rw [BitVec.sshiftRight, Int.shiftRight_eq_div_pow, Int.natCast_pow]
  rfl

/-- A shift amount in a register is its value modulo 32. -/
theorem shiftAmount_eq_mod (y : Word) : shiftAmount y = y.toNat % 32 := by
  rw [shiftAmount, BitVec.extractLsb'_toNat]; rfl

/-! ## Comparisons (R222) -/

theorem flag_eq_boolWord {p : Prop} [Decidable p] {b : Bool} (h : b = true ↔ p) : Spec.flag p = boolWord b := by
  unfold Spec.flag boolWord
  exact if_congr h.symm rfl rfl

theorem flag_slt (x y : Word) : Spec.flag (x.toInt < y.toInt) = boolWord (x.slt y) :=
  flag_eq_boolWord BitVec.slt_iff_toInt_lt

theorem flag_ult (x y : Word) : Spec.flag (x.toNat < y.toNat) = boolWord (x.ult y) :=
  flag_eq_boolWord BitVec.ult_iff_toNat_lt

theorem flag_slt_sext {n : Nat} (hn : n ≤ 32) (x : Word) (imm : BitVec n) :
    Spec.flag (x.toInt < imm.toInt) = boolWord (x.slt (sext imm)) := by
  have h : (sext imm).toInt = imm.toInt := BitVec.toInt_signExtend_of_le hn
  exact flag_eq_boolWord (by rw [BitVec.slt_iff_toInt_lt, h])

/-! ## Instructions that compute a word -/

/-- An instruction that writes the word `v` to rd and goes on computes `w`, where `w` is that word. -/
theorem writeBack_computes {i : Instr} {rd : Reg} {v w len : Word} {s : State} (hexec : exec i s = writeBack rd v len s)
    (hw : w = v) : Spec.Computes i rd w (s.pc + len) s :=
  hw ▸ ⟨_, hexec, wrote_advance_writeReg rd v len s, by simp, advance_writeReg_frame rd v len s⟩

/-- Settles O19: each instruction writes one word back, the one its rule gives modulo 2^32. -/
theorem integerImmediateResults : Obligations.IntegerImmediateResults := by
  intro s rd rs1 imm20 imm shamt x next
  refine ⟨?lui, ?auipc, ?addi, ?slti, ?sltiu, ?xori, ?ori, ?andi, ?slli, ?srli, ?srai⟩
  case lui => exact writeBack_computes rfl (word_upperImm imm20)
  case auipc => exact writeBack_computes rfl (word_toNat_add_upperImm s.pc imm20)
  case addi => exact writeBack_computes rfl (word_toInt_add_sext x imm)
  case slti => exact writeBack_computes rfl (flag_slt_sext (by decide) x imm)
  case sltiu => exact writeBack_computes rfl (flag_ult x (sext imm))
  case xori | ori | andi => exact writeBack_computes rfl rfl
  case slli => exact writeBack_computes rfl (word_shiftLeft x shamt.toNat)
  case srli => exact writeBack_computes rfl (word_ushiftRight x shamt.toNat)
  case srai => exact writeBack_computes rfl (word_sshiftRight x shamt.toNat)

/-- Settles O20: the same with a second register, whose low five bits are the amount of a shift. -/
theorem integerRegisterResults : Obligations.IntegerRegisterResults := by
  intro s rd rs1 rs2 x y next
  rw [← shiftAmount_eq_mod y]
  refine ⟨?add, ?sub, ?sll, ?slt, ?sltu, ?xor, ?srl, ?sra, ?or, ?and⟩
  case add => exact writeBack_computes rfl (word_toInt_add x y)
  case sub => exact writeBack_computes rfl (word_toInt_sub x y)
  case sll => exact writeBack_computes rfl (word_shiftLeft x (shiftAmount y))
  case slt => exact writeBack_computes rfl (flag_slt x y)
  case sltu => exact writeBack_computes rfl (flag_ult x y)
  case xor | or | and => exact writeBack_computes rfl rfl
  case srl => exact writeBack_computes rfl (word_ushiftRight x (shiftAmount y))
  case sra => exact writeBack_computes rfl (word_sshiftRight x (shiftAmount y))

/-! ## Words of the encodings (R203) -/

/-- Settles O15: the decoder, run on each word. -/
theorem decodeWords : Obligations.DecodeWords := by
  unfold Obligations.DecodeWords
  decide

end Sys2Proof.Machine
end

section
/-! The RV32I control transfers and their compressed forms (R250 to R258, R357, R368 to R370, R373, R376): the targets
in the words of the specification, and what a jump and a branch do to the state. -/

namespace Sys2Proof.Machine

/-! ## Targets (R250, R252) -/

theorem word_toNat_add_sext {n : Nat} (pc : Word) (off : BitVec n) : Spec.word (pc.toNat + off.toInt) = pc + sext off := by
  rw [word_add, word_toNat, word_toInt_sext]

/-- The mask of R252 keeps the upper 31 bits and puts a zero below them. -/
theorem clearBit0_eq_and (w : Word) : w.extractLsb' 1 31 ++ 0#1 = w &&& 0xFFFFFFFE#32 := by
  calc w.extractLsb' 1 31 ++ 0#1
    _ = (w.extractLsb' 1 31 ++ w.extractLsb' 0 1) &&& (BitVec.allOnes 31 ++ 0#1) := by
      rw [BitVec.and_append, BitVec.and_allOnes, BitVec.and_zero]
    _ = w &&& 0xFFFFFFFE#32 :=
      congrArg (· &&& 0xFFFFFFFE#32) (BitVec.extractLsb'_append_extractLsb' (w := 31) (len := 1))

theorem word_indirectTarget {n : Nat} (base : Word) (imm : BitVec n) :
    (Spec.word (base.toInt + imm.toInt)).extractLsb' 1 31 ++ 0#1 = indirectTarget base (sext imm) := by
  rw [word_toInt_add_sext, clearBit0_eq_and, indirectTarget]

/-- The compressed forms have no offset (R373, R376). -/
theorem clearBit0_eq_indirectTarget (base : Word) : base.extractLsb' 1 31 ++ 0#1 = indirectTarget base 0#32 := by
  rw [clearBit0_eq_and, indirectTarget, BitVec.add_zero]

/-! ## Jumps (R251, R252) -/

theorem setPc_writeReg_frame (rd : Reg) (v target : Word) (s : State) :
    Spec.OnlyRegsAndPc s (setPc target (writeReg rd v s)) := by
  refine ⟨⟨?_, ?_⟩, by simp, by simp, fun a => by simp⟩ <;> constructor <;> simp

/-- The same where no register is written. -/
theorem setPc_frame (target : Word) (s : State) : Spec.OnlyRegsAndPc s (setPc target s) :=
  setPc_writeReg_frame 0#5 0#32 target s

/-- An instruction that jumps to `target` with its link in rd computes the link and goes to `w`, where `w` is `target`. -/
theorem jumpTo_computes {i : Instr} {rd : Reg} {target w len : Word} {s : State}
    (hexec : exec i s = jumpTo rd target len s) (hw : w = target) : Spec.Computes i rd (s.pc + len) w s :=
  hw ▸ ⟨_, hexec, fun r => readReg_writeReg rd r (s.pc + len) s, rfl, setPc_writeReg_frame rd (s.pc + len) target s⟩

theorem sameRegs_of_wrote_zero {v : Word} {s t : State} (h : Spec.Wrote 0#5 v s t) : Spec.SameRegs s t := by
  intro r
  rw [h r]
  by_cases hr : r = 0#5
  · rw [if_pos hr, hr, readReg_zero]
  · rw [if_neg hr, if_neg hr]

/-- An instruction whose result goes to x0 only goes on (R21). -/
theorem goes_of_computes_zero {i : Instr} {v next : Word} {s : State} (h : Spec.Computes i 0#5 v next s) :
    Spec.Goes i next s := by
  obtain ⟨t, hexec, hwrote, hpc, hframe⟩ := h
  exact ⟨t, hexec, sameRegs_of_wrote_zero hwrote, hpc, hframe⟩

/-- Settles O24: each jump is one link and one target; the link of C.J and C.JR is x0. -/
theorem jumpResults : Obligations.JumpResults := by
  intro s rd rs1 off imm coff
  refine ⟨?jal, ?jalr, ?cJal, ?cJ, ?cJr, ?cJalr⟩
  case jal => exact jumpTo_computes rfl (word_toNat_add_sext s.pc off)
  case jalr => exact jumpTo_computes rfl (word_indirectTarget (readReg s rs1) imm)
  case cJal => exact jumpTo_computes rfl (word_toNat_add_sext s.pc coff)
  case cJ => exact goes_of_computes_zero (jumpTo_computes rfl (word_toNat_add_sext s.pc coff))
  case cJr => exact goes_of_computes_zero (jumpTo_computes rfl (clearBit0_eq_indirectTarget (readReg s rs1)))
  case cJalr => exact jumpTo_computes rfl (clearBit0_eq_indirectTarget (readReg s rs1))

/-! ## Branches (R253 to R258) -/

/-- A branch, taken or not, only sets pc. -/
theorem branchIf_eq_setPc (c : Bool) (off len : Word) (s : State) :
    branchIf c off len s = .next (setPc (if c then s.pc + off else s.pc + len) s) := by
  cases c <;> rfl

/-- An instruction that branches on the truth of `p` goes to the target if `p` holds and on otherwise. -/
theorem branchIf_goes {n : Nat} {i : Instr} {c : Bool} {p : Prop} [Decidable p] {off : BitVec n} {len : Word} {s : State}
    (hexec : exec i s = branchIf c (sext off) len s) (hc : c = true ↔ p) :
    Spec.Goes i (if p then Spec.word (s.pc.toNat + off.toInt) else s.pc + len) s := by
  refine ⟨_, hexec.trans (branchIf_eq_setPc c (sext off) len s), fun _ => rfl, ?_, setPc_frame _ s⟩
  rw [setPc_pc, word_toNat_add_sext]
  exact if_congr hc rfl rfl

/-- Settles O25: the machine's Boolean test of each branch decides its condition. -/
theorem branchResults : Obligations.BranchResults := by
  intro s rs1 rs2 off coff x y tgt ctgt
  refine ⟨?beq, ?bne, ?blt, ?bge, ?bltu, ?bgeu, ?cBeqz, ?cBnez⟩
  case beq | cBeqz => exact branchIf_goes rfl beq_iff_eq
  case bne | cBnez => exact branchIf_goes rfl bne_iff_ne
  case blt => exact branchIf_goes rfl BitVec.slt_iff_toInt_lt
  case bge => exact branchIf_goes rfl BitVec.sle_iff_toInt_le
  case bltu => exact branchIf_goes rfl BitVec.ult_iff_toNat_lt
  case bgeu => exact branchIf_goes rfl BitVec.ule_iff_toNat_le

end Sys2Proof.Machine
end

section
/-! RAM accesses, raising translations and fences (R123, R270 to R278, R290, R291, R323, R325, R353, R354, R372, R378):
what a load and a store do at an address in RAM, and the trap of a translation that raises. -/

namespace Sys2Proof.Machine

/-! ## Frames one after the other -/

theorem sameHart_trans {s t u : State} (h : Spec.SameHart s t) (h' : Spec.SameHart t u) : Spec.SameHart s u where
  priv := h'.priv.trans h.priv
  csr := h'.csr.trans h.csr
  cfg := h'.cfg.trans h.cfg
  parked := h'.parked.trans h.parked
  evTrap := h'.evTrap.trans h.evTrap
  mmioLog := h'.mmioLog.trans h.mmioLog
  agenda := h'.agenda.trans h.agenda

theorem sameShared_trans {s t u : State} (h : Spec.SameShared s t) (h' : Spec.SameShared t u) : Spec.SameShared s u where
  time := h'.time.trans h.time
  timecmp := h'.timecmp.trans h.timecmp
  waitEvent := h'.waitEvent.trans h.waitEvent
  evInt := h'.evInt.trans h.evInt
  evIntMask := h'.evIntMask.trans h.evIntMask
  devices := h'.devices.trans h.devices
  interleaved := h'.interleaved.trans h.interleaved

/-- What the hart keeps until the memory event of an access that has been translated (R14). -/
theorem memoryEvent_private {va : Word} {ty : AccessType} {s s1 : State} {pa : PhysAddr}
    (ht : Machine.translate va ty s = .ok pa s1) : SamePrivate s (interleave s1) :=
  (translate_private ht).trans (interleave_private s1)

/-! ## Fences (R290, R291) -/

theorem goes_of_advance {i : Instr} {len : Word} {s : State} (hexec : exec i s = .next (advance len s)) :
    Spec.Goes i (s.pc + len) s :=
  ⟨_, hexec, readReg_advance len s, advance_pc len s, advance_frame len s⟩

/-- Settles O34: a fence is the step to the next instruction, and its word is that of an I-type format. -/
theorem fencesDoNothing : Obligations.FencesDoNothing :=
  fun _ _ _ _ _ _ _ => ⟨goes_of_advance rfl, goes_of_advance rfl, rfl, rfl⟩

/-! ## Loads from RAM (R271 to R275, R353, R372) -/

theorem extractLsb'_readBytes_byte (m : Memory) (a : Nat) : (readBytes m a 1).extractLsb' 0 8 = readByte m a := by
  rw [readBytes_byte, extractLsb'_byte_zeroExtend]

/-- An instruction whose form is a load of the width `w` loads from RAM what its form makes of the bytes read there. -/
theorem load_fromRam {i : Instr} {s : State} {rd : Reg} {va : Word} {w : Width} {value : Word → Word} {len : Word}
    {loaded : Memory → Nat → Word} (hload : Spec.loadForm i s = some (rd, va, w, value, len))
    (hvalue : ∀ m a, value (readBytes m a w.bytes) = loaded m a) :
    Spec.LoadsFromRam i rd va w.bytes len loaded s := by
  intro pa s1 ha ht hr s2
  have hpriv : SamePrivate s s2 := memoryEvent_private ht
  rw [← (translate_private ht).cfg] at hr
  rw [exec_of_loadForm hload, memRead_ram ((aligned_iff va w).mpr ha) ht hr, Access.finish, hvalue]
  obtain ⟨⟨hhart, hshared⟩, htlb, hrsv, hbytes⟩ := advance_writeReg_frame rd (loaded s2.mem pa.toNat) len s2
  exact ⟨_, rfl, fun r => by rw [wrote_advance_writeReg, hpriv.sameRegs r], by rw [advance_pc, writeReg_pc, hpriv.pc],
    sameHart_trans hpriv.sameHart hhart, hshared, htlb.trans (interleave_tlb s1), hrsv, hbytes⟩

/-- Settles O26: each load is a load of its width, and what its form makes of the data is the value of the bytes. -/
theorem loadResults : Obligations.LoadResults := by
  intro s rd rs1 imm uimm7 uimm8 va
  refine ⟨?lb, ?lh, ?lw, ?lbu, ?lhu, ?cLw, ?cLwsp⟩
  case lb | lbu => exact load_fromRam (w := .byte) rfl fun m a => congrArg _ (extractLsb'_readBytes_byte m a)
  case lh | lhu => exact load_fromRam (w := .half) rfl fun m a => congrArg _ (readBytes_half m a)
  case lw | cLw | cLwsp => exact load_fromRam (w := .word) rfl readBytes_word

/-! ## A write to RAM (R100, R111, R323) -/

theorem reservationHit_iff (rsv : Option PhysAddr) (pa : PhysAddr) (n : Nat) :
    reservationHit rsv pa n = true ↔ Spec.Overlaps rsv pa n := by
  cases rsv <;> simp [reservationHit, Spec.Overlaps]

section
variable (pa : PhysAddr) (n : Nat) (v : Word) (s : State)

theorem ramWrite_keepsReservation : Spec.StoreKeepsReservation pa n s (ramWrite pa n v s) := by
  rw [Spec.StoreKeepsReservation, ← reservationHit_iff, ramWrite_rsv]
  exact ⟨fun h => if_pos h, fun h => if_neg h⟩

theorem ramWrite_private : SamePrivate s (ramWrite pa n v s) := by constructor <;> simp

theorem ramWrite_shared : Spec.SameShared s (ramWrite pa n v s) := by constructor <;> simp

theorem ramWrite_bytesOutside : Spec.SameBytesOutside pa.toNat n s (ramWrite pa n v s) := fun b hb => by
  rw [ramWrite_mem, readByte_writeBytes_outside n _ b hb]

end

theorem readByte_ramWrite {n k : Nat} (hk : k < n) (pa : PhysAddr) (v : Word) {s : State} (h : s.mem.wf = true) :
    readByte (ramWrite pa n v s).mem (pa.toNat + k) = Spec.byteOf v k := by
  rw [ramWrite_mem, readByte_writeBytes_byteOf hk _ _ h]

/-! ## Stores to RAM (R276 to R278, R354, R378) -/

/-- What an instruction does before it commits keeps the canonical form of memory. -/
theorem Reaches.mem_wf {s t : State} (hr : Reaches s t) (h : s.mem.wf = true) : t.mem.wf = true := by
  induction hr with
  | refl => exact h
  | interleave _ ih => exact interleave_mem_wf ih
  | orAD _ _ _ ih => exact writeBytes_wf _ _ _ ih
  | tlbFill _ _ _ _ ih => simpa using ih
  | flushTlb _ ih => exact ih
  | mmioCall acc _ ih => exact mmioCall_mem_wf acc ih
  | ramWrite v _ _ ih => exact ramWrite_mem_wf _ _ v ih
  | unreserve _ ih => exact ih

/-- An instruction that is a store of the width `w` writes the low bytes of its value to RAM, and then goes on. -/
theorem store_toRam {i : Instr} {s : State} {va : Word} {w : Width} {v len : Word}
    (hexec : exec i s = storeTo va w v len s) : Spec.StoresToRam i va w.bytes v len s := by
  intro pa s1 hwf ha ht hr s2
  have hpriv : SamePrivate s (ramWrite pa w.bytes v s2) := (memoryEvent_private ht).trans (ramWrite_private ..)
  have hwf2 : s2.mem.wf = true := (reaches_of_ok (translate_reaches ..) ht).interleave.mem_wf hwf
  rw [← (translate_private ht).cfg] at hr
  rw [hexec, storeTo_ram ((aligned_iff va w).mpr ha) ht hr]
  obtain ⟨⟨hhart, hshared⟩, htlb, -, -⟩ := advance_frame len (ramWrite pa w.bytes v s2)
  exact ⟨_, rfl, fun k hk => readByte_ramWrite hk pa v hwf2, ramWrite_bytesOutside pa w.bytes v s2,
    ramWrite_keepsReservation pa w.bytes v s2, hpriv.sameRegs, by rw [advance_pc, hpriv.pc],
    sameHart_trans hpriv.sameHart hhart, sameShared_trans (ramWrite_shared ..) hshared,
    htlb.trans ((ramWrite_tlb ..).trans (interleave_tlb s1))⟩

/-- Settles O27: each store, compressed or not, is one store of its width. -/
theorem storeResults : Obligations.StoreResults := by
  intro s rs2 rs1 imm uimm7 uimm8 va v
  refine ⟨?sb, ?sh, ?sw, ?cSw, ?cSwsp⟩
  case sb => exact store_toRam (w := .byte) rfl
  case sh => exact store_toRam (w := .half) rfl
  case sw | cSw | cSwsp => exact store_toRam (w := .word) rfl

/-! ## A translation that raises (R123, R270, R325) -/

section
variable {va : Word} {w : Width} {s s1 : State} {e : Exception} {tv : Word}

theorem memRead_of_translate_raise (ha : va.toNat % w.bytes = 0) (ht : Machine.translate va .load s = .raise e tv s1) :
    memRead va w s = .raise e tv s1 := by
  simp [memRead, (aligned_iff va w).mpr ha, ht, Access.andThen]

theorem memWrite_of_translate_raise (ha : va.toNat % w.bytes = 0) (ht : Machine.translate va .store s = .raise e tv s1)
    (v : Word) : memWrite va w v s = .raise e tv s1 := by
  simp [memWrite, (aligned_iff va w).mpr ha, ht, Access.andThen]

theorem atomicAddr_of_translate_raise {ty : AccessType} (ha : va.toNat % 4 = 0)
    (ht : Machine.translate va ty s = .raise e tv s1) (m : Exception) : atomicAddr va ty m s = .raise e tv s1 := by
  simp [atomicAddr, (aligned_iff va .word).mpr ha, ht, Access.andThen]

end

/-- Settles O30: in each of the three kinds of access the translation's exception is the access's own. -/
theorem translationFaultsTrap : Obligations.TranslationFaultsTrap := by
  intro i s ty va n e tv s1 hform hn ht
  have hcore := (translate_raise_private ht).core
  obtain ⟨-, rfl, -⟩ := translate_raise ht
  cases dataAccess_of_memForm hform with
  | load _ hload hw =>
    subst hw
    rw [exec_of_loadForm hload]
    exact finish_traps (memRead_of_translate_raise hn ht) hcore _
  | store _ hstore hw =>
    subst hw
    obtain ⟨src, -, hexec⟩ := exec_of_storeForm hstore
    rw [hexec]
    exact finish_traps (memWrite_of_translate_raise hn ht src) hcore _
  | atomic _ _ hexec =>
    rw [hexec]
    exact finish_traps (atomicAddr_of_translate_raise hn ht _) hcore _

end Sys2Proof.Machine
end

section
/-! The M extension (R300 to R311): the words of the products, quotients and remainders as integers modulo 2^32. -/

namespace Sys2Proof.Machine

/-! ## Products (R301 to R304, R309) -/

theorem word_natCast (n : Nat) : Spec.word n = BitVec.ofNat 32 n := BitVec.ofInt_natCast 32 n

theorem word_mul (m n : Int) : Spec.word (m * n) = Spec.word m * Spec.word n := BitVec.ofInt_mul m n

/-- The low half of a product does not depend on whether its factors are signed (R302). -/
theorem word_toInt_mul (x y : Word) : Spec.word (x.toInt * y.toInt) = low32 (x.toNat * y.toNat) := by
  calc Spec.word (x.toInt * y.toInt) = x * y := by rw [word_mul, word_toInt, word_toInt]
    _ = Spec.word (x.toNat * y.toNat) := by rw [word_mul, word_toNat, word_toNat]

/-- The division of a product by 2^32 rounds toward minus infinity (R301). -/
theorem word_div_eq_high32 (n : Int) : Spec.word (n / 2 ^ 32) = high32 n := by
  rw [high32, Int.fdiv_eq_ediv_of_nonneg n (by decide)]
  rfl

theorem ofNat_div_eq_high32 (n : Nat) : BitVec.ofNat 32 (n / 2 ^ 32) = high32 n := by
  rw [← word_div_eq_high32, ← word_natCast]
  rfl

/-- Settles O21: each multiplication writes back a half of one exact integer product. -/
theorem multiplyResults : Obligations.MultiplyResults := by
  intro s rd rs1 rs2 x y next
  refine ⟨?mul, ?mulh, ?mulhsu, ?mulhu⟩
  case mul => exact writeBack_computes rfl (word_toInt_mul x y)
  case mulh => exact writeBack_computes rfl (word_div_eq_high32 (x.toInt * y.toInt))
  case mulhsu => exact writeBack_computes rfl (word_div_eq_high32 (x.toInt * y.toNat))
  case mulhu => exact writeBack_computes rfl (ofNat_div_eq_high32 (x.toNat * y.toNat))

/-! ## Quotients and remainders (R305 to R308, R310) -/

/-- R307 gives the remainder by the truncated quotient; as `tmod` it has the sign of the dividend. -/
theorem word_tmod (m n : Int) : Spec.word (m.tmod n) = low32 (m - n * m.tdiv n) := by
  rw [Int.tmod_def]
  rfl

/-- Settles O22: the special cases of R310 are the machine's own; beyond them the words of the results agree. -/
theorem divideResults : Obligations.DivideResults := by
  intro s rd rs1 rs2 x y next overflow
  refine ⟨?div, ?divu, ?rem, ?remu⟩
  case div => exact writeBack_computes rfl rfl
  case divu => exact writeBack_computes rfl (if_congr .rfl rfl (word_natCast (x.toNat / y.toNat)))
  case rem => exact writeBack_computes rfl (if_congr .rfl rfl (if_congr .rfl rfl (word_tmod x.toInt y.toInt)))
  case remu => exact writeBack_computes rfl (if_congr .rfl rfl (word_natCast (x.toNat % y.toNat)))

end Sys2Proof.Machine
end

section
/-! The reservation (R320 to R324): what an instruction other than LR.W and what another agent can do to it. -/

namespace Sys2Proof.Machine

/-- The reservation is in `t` what it is in `s`, or it is invalid there. -/
def RsvKeptOrCleared (s t : State) : Prop := t.rsv = s.rsv ∨ t.rsv = none

theorem RsvKeptOrCleared.refl (s : State) : RsvKeptOrCleared s s := .inl rfl

theorem RsvKeptOrCleared.trans {s t u : State} (h : RsvKeptOrCleared s t) (h' : RsvKeptOrCleared t u) :
    RsvKeptOrCleared s u := by
  rcases h' with h' | h'
  · rw [RsvKeptOrCleared, h']; exact h
  · exact .inr h'

/-! ## Stores of other harts (R324) -/

/-- A store of another hart to RAM is, under RSV_SNOOP, what a store of this hart does to RAM and to the reservation;
without it, it writes the bytes. -/
theorem otherHartStore_of_other {h : Nat} {pa : PhysAddr} {w : Width} {s : State} (hlt : h < s.cfg.nharts)
    (hne : h ≠ s.csr.hartid.toNat) (hr : inRam s.cfg pa w.bytes = true) (v : Word) :
    otherHartStore h pa w v s =
      if s.cfg.rsvSnoop then ramWrite pa w.bytes v s else { s with mem := writeBytes pa.toNat v s.mem w.bytes } := by
  rw [otherHartStore, if_pos (by simp [isOtherHart, hlt, hne, hr])]
  rfl

/-- An index that is no other hart, or an address outside RAM: nothing happens (log entries 5, 13). -/
theorem otherHartStore_of_not_other {h : Nat} {pa : PhysAddr} {w : Width} {s : State}
    (hn : s.cfg.nharts ≤ h ∨ h = s.csr.hartid.toNat ∨ inRam s.cfg pa w.bytes = false) (v : Word) :
    otherHartStore h pa w v s = s := by
  refine if_neg ?_
  rw [Bool.and_eq_true, isOtherHart, Bool.and_eq_true, decide_eq_true_eq, bne_iff_ne]
  rintro ⟨⟨hlt, hne⟩, hr⟩
  rcases hn with hge | heq | hout
  · exact absurd hlt (Nat.not_lt.mpr hge)
  · exact hne heq
  · rw [hout] at hr; cases hr

theorem agentAct_private (s : State) (a : AgentAction) : SamePrivate s (agentAct s a) := by constructor <;> simp

/-- Settles O60: the store of another hart is a store to RAM, whose check of the reservation RSV_SNOOP turns on. -/
theorem otherHartStores : Obligations.OtherHartStores := by
  intro s h pa w v t
  refine ⟨fun hwf hlt hne hr => ?_, otherHartStore_of_not_other (v := v)⟩
  have ht : t = _ := otherHartStore_of_other hlt hne hr v
  have hpriv : SamePrivate s t := agentAct_private s _
  have htlb : t.tlb = s.tlb := agentAct_tlb s _
  cases hsnoop : s.cfg.rsvSnoop with
  | true =>
    replace ht : t = ramWrite pa w.bytes v s := by rw [ht, if_pos hsnoop]
    have hshared : Spec.SameShared s t := ht ▸ ramWrite_shared pa w.bytes v s
    exact ⟨fun k hk => ht ▸ readByte_ramWrite hk pa v hwf, ht ▸ ramWrite_bytesOutside pa w.bytes v s,
      fun _ => ht ▸ ramWrite_keepsReservation pa w.bytes v s, nofun, ⟨hpriv.sameHart, hshared⟩, hpriv.sameRegs,
      hpriv.pc, htlb⟩
  | false =>
    replace ht : t = { s with mem := writeBytes pa.toNat v s.mem w.bytes } := by rw [ht, if_neg (by simp [hsnoop])]
    have hshared : Spec.SameShared s t := by rw [ht]; constructor <;> rfl
    exact ⟨fun k hk => ht ▸ readByte_writeBytes_byteOf hk pa.toNat v hwf,
      fun b hb => ht ▸ readByte_writeBytes_outside w.bytes pa.toNat b hb v s.mem, nofun, fun _ => by rw [ht],
      ⟨hpriv.sameHart, hshared⟩, hpriv.sameRegs, hpriv.pc, htlb⟩

/-! ## What keeps or clears the reservation (R321 to R324) -/

theorem ramWrite_rsvKeptOrCleared (pa : PhysAddr) (n : Nat) (v : Word) (s : State) :
    RsvKeptOrCleared s (ramWrite pa n v s) := by
  rw [RsvKeptOrCleared, ramWrite_rsv]
  split
  · exact .inr rfl
  · exact .inl rfl

theorem otherHartStore_rsvKeptOrCleared (h : Nat) (pa : PhysAddr) (w : Width) (v : Word) (s : State) :
    RsvKeptOrCleared s (otherHartStore h pa w v s) := by
  unfold otherHartStore
  split
  · dsimp only
    split
    · exact ramWrite_rsvKeptOrCleared pa w.bytes v s
    · exact .inl rfl
  · exact .refl s

theorem agentAct_rsvKeptOrCleared (s : State) (a : AgentAction) : RsvKeptOrCleared s (agentAct s a) := by
  cases a with
  | device a => exact .inl (deviceAct_rsv s a)
  | deviceState n => exact .inl rfl
  | timer => rw [agentAct]; split <;> exact .inl rfl
  | timeTo t => rw [agentAct]; split <;> exact .inl rfl
  | otherHartStore h pa w v => exact otherHartStore_rsvKeptOrCleared h pa w v s

theorem Reaches.rsvKeptOrCleared {s t : State} (h : Reaches s t) : RsvKeptOrCleared s t := by
  induction h with
  | refl => exact .refl s
  | @interleave t _ ih =>
    exact ih.trans (interleave_induction (P := RsvKeptOrCleared t) (fun _ => .inl rfl)
      fun u a hu => hu.trans (agentAct_rsvKeptOrCleared u a))
  | orAD ty _ _ ih => exact ih
  | @tlbFill t va ty pa _ ih => exact ih.trans (.inl (tlbFill_rsv va ty pa t))
  | flushTlb _ ih => exact ih
  | @mmioCall t acc _ ih =>
    obtain ⟨-, -, -, -, -, hrsv, -⟩ := mmioCall_frame acc t
    exact ih.trans (.inl hrsv)
  | @ramWrite t pa n v _ _ ih => exact ih.trans (ramWrite_rsvKeptOrCleared pa n v t)
  | unreserve _ _ => exact .inr rfl

/-- Of the effects of an instruction, only that of LR.W sets a reservation. -/
theorem ExecEffect.rsvKeptOrCleared {i : Instr} {s t : State} (h : ExecEffect i s t)
    (hi : ∀ aq rl rd rs1, i ≠ .lrW aq rl rd rs1) : RsvKeptOrCleared s t := by
  cases h with
  | commit rd v next hr _ => exact hr.rsvKeptOrCleared.trans (.inl (writeReg_rsv rd v _))
  | reserve _ hlr _ _ _ => exact absurd hlr (hi _ _ _ _)
  | trap e tval _ _ => exact .inr (raiseException_rsv e tval _)
  | csr src rd _ _ => exact .inl (by simp)
  | trapReturn _ _ => exact .inl (trapReturn_rsv _ s)
  | interrupt _ _ => exact .inr (takeTrap_rsv ..)
  | park _ => exact .inl rfl

/-- Settles O10: an instruction other than LR.W has none of the effects that set a reservation. -/
theorem onlyLoadReservedReserves : Obligations.OnlyLoadReservedReserves :=
  fun _ _ _ hi hexec => (exec_effect hexec).rsvKeptOrCleared hi

end Sys2Proof.Machine
end

section
/-! The A extension (R320 to R337): what LR.W, SC.W and the AMOs do at an aligned word of RAM. -/

namespace Sys2Proof.Machine

/-! ## An atomic instruction around its memory event (R325) -/

/-- `t` is what an instruction leaves that began in `s`, had its memory event in `s2`, wrote `v` to rd and went on;
memory and the reservation are left open. -/
structure Commits (rd : Reg) (v len : Word) (s s2 t : State) : Prop where
  wrote : Spec.Wrote rd v s t
  pc : t.pc = s.pc + len
  hart : Spec.SameHart s t
  shared : Spec.SameShared s2 t
  tlb : t.tlb = s2.tlb

theorem commits_advance_writeReg {s s2 u : State} (h : SamePrivate s s2)
    (hu : u = { s2 with mem := u.mem, rsv := u.rsv }) (rd : Reg) (v len : Word) :
    Commits rd v len s s2 (advance len (writeReg rd v u)) := by
  have hpriv : SamePrivate s u := h.trans (by rw [hu]; constructor <;> rfl)
  have hshared2 : Spec.SameShared s2 u := by rw [hu]; constructor <;> rfl
  have htlb2 : u.tlb = s2.tlb := by rw [hu]
  obtain ⟨⟨hhart, hshared⟩, htlb, -, -⟩ := advance_writeReg_frame rd v len u
  exact ⟨fun q => by rw [wrote_advance_writeReg, hpriv.sameRegs q], by rw [advance_pc, writeReg_pc, hpriv.pc],
    sameHart_trans hpriv.sameHart hhart, sameShared_trans hshared2 hshared, htlb.trans htlb2⟩

/-- A write to RAM changes memory and the reservation (R323). -/
theorem ramWrite_eq (pa : PhysAddr) (n : Nat) (v : Word) (s : State) : ramWrite pa n v s =
    { s with mem := (ramWrite pa n v s).mem, rsv := (ramWrite pa n v s).rsv } := by
  unfold ramWrite reservationStoreCheck
  split <;> rfl

/-- A word written to RAM reads as that word. -/
theorem word4_writeBytes (a : Nat) (v : Word) {m : Memory} (h : m.wf = true) :
    Spec.word4 (writeBytes a v m 4) a = v := by
  rw [← readBytes_word, readBytes_writeBytes_word a v h]

theorem memoryEvent_mem_wf {va : Word} {ty : AccessType} {s s1 : State} {pa : PhysAddr}
    (ht : Machine.translate va ty s = .ok pa s1) (h : s.mem.wf = true) : (interleave s1).mem.wf = true :=
  (reaches_of_ok (translate_reaches ..) ht).interleave.mem_wf h

/-- An atomic instruction at an aligned word of RAM commits, on the state of its one memory event. -/
theorem finish_atomicAddr_ram {va : Word} {ty : AccessType} {s s1 : State} {pa : PhysAddr} (ha : va.toNat % 4 = 0)
    (ht : Machine.translate va ty s = .ok pa s1) (hr : inRam s.cfg pa 4 = true) (e : Exception)
    (commit : PhysAddr → State → State) :
    (atomicAddr va ty e s).finish commit = .next (commit pa (interleave s1)) := by
  rw [← (translate_private ht).cfg] at hr
  rw [atomicAddr_ram ((aligned_iff va .word).mpr ha) ht hr, Access.finish]

/-! ## LR.W (R326) -/

/-- Settles O35: LR.W commits the word read at its memory event and its address as the reservation. -/
theorem loadReservedResult : Obligations.LoadReservedResult := by
  intro s aq rl rd rs1 pa s1 ha ht hr s2
  have hexec : exec (.lrW aq rl rd rs1) s = .next _ := finish_atomicAddr_ram ha ht hr _ _
  obtain ⟨hwrote, hpc, hhart, hshared, htlb⟩ := commits_advance_writeReg
    (u := { s2 with rsv := some pa }) (memoryEvent_private ht) rfl rd (Spec.word4 s2.mem pa.toNat) 4#32
  rw [readBytes_word] at hexec
  exact ⟨_, hexec, hwrote, by rw [advance_rsv, writeReg_rsv], hpc, hhart, hshared, htlb.trans (interleave_tlb s1),
    fun a => by rw [advance_mem, writeReg_mem]⟩

/-! ## SC.W (R327) -/

section
variable {s s1 : State} {aq rl : Bool} {rd rs2 rs1 : Reg} {pa : PhysAddr}

theorem exec_scW_of_reserved (ha : (readReg s rs1).toNat % 4 = 0)
    (ht : Machine.translate (readReg s rs1) .store s = .ok pa s1) (hr : inRam s.cfg pa 4 = true)
    (h : (interleave s1).rsv = some pa) :
    exec (.scW aq rl rd rs2 rs1) s = .next (advance 4#32 (writeReg rd 0#32
      { interleave s1 with mem := writeBytes pa.toNat (readReg s rs2) (interleave s1).mem 4, rsv := none })) := by
  have hexec : exec (.scW aq rl rd rs2 rs1) s = .next _ := finish_atomicAddr_ram ha ht hr _ _
  rw [hexec, ramWrite_eq]
  simp [h]

theorem exec_scW_of_not_reserved (ha : (readReg s rs1).toNat % 4 = 0)
    (ht : Machine.translate (readReg s rs1) .store s = .ok pa s1) (hr : inRam s.cfg pa 4 = true)
    (h : (interleave s1).rsv ≠ some pa) :
    exec (.scW aq rl rd rs2 rs1) s = .next (advance 4#32 (writeReg rd 1#32 { interleave s1 with rsv := none })) := by
  have hexec : exec (.scW aq rl rd rs2 rs1) s = .next _ := finish_atomicAddr_ram ha ht hr _ _
  rw [hexec]
  simp [h]

end

/-- Settles O36: the reservation at the memory event decides between the store and the failure. -/
theorem storeConditionalResult : Obligations.StoreConditionalResult := by
  intro s aq rl rd rs2 rs1 pa s1 hwf ha ht hr s2
  have hpriv : SamePrivate s s2 := memoryEvent_private ht
  have hwf2 : s2.mem.wf = true := memoryEvent_mem_wf ht hwf
  by_cases h : s2.rsv = some pa
  · obtain ⟨hwrote, hpc, hhart, hshared, htlb⟩ := commits_advance_writeReg
      (u := { s2 with mem := writeBytes pa.toNat (readReg s rs2) s2.mem 4, rsv := none }) hpriv rfl rd 0#32 4#32
    refine ⟨_, exec_scW_of_reserved ha ht hr h, by rw [advance_rsv, writeReg_rsv], hpc, hhart, hshared,
      htlb.trans (interleave_tlb s1), fun _ => ⟨hwrote, ?_, fun b hb => ?_⟩, fun hne => absurd h hne⟩
    · rw [advance_mem, writeReg_mem, word4_writeBytes _ _ hwf2]
    · rw [advance_mem, writeReg_mem, readByte_writeBytes_outside 4 _ b hb]
  · obtain ⟨hwrote, hpc, hhart, hshared, htlb⟩ := commits_advance_writeReg
      (u := { s2 with rsv := none }) hpriv rfl rd 1#32 4#32
    exact ⟨_, exec_scW_of_not_reserved ha ht hr h, by rw [advance_rsv, writeReg_rsv], hpc, hhart, hshared,
      htlb.trans (interleave_tlb s1), fun heq => absurd heq h,
      fun _ => ⟨hwrote, fun a => by rw [advance_mem, writeReg_mem]⟩⟩

/-! ## The AMOs (R328 to R337) -/

/-- An instruction that is the AMO of `f` replaces the word by `g` of it, where `g` is `f`. -/
theorem amo_onRam {i : Instr} {f g : Word → Word → Word} {rd rs2 rs1 : Reg} {s : State}
    (hexec : exec i s = amo f rd rs2 rs1 s) (hg : ∀ old src, g old src = f old src) :
    Spec.AmoOnRam i g rd rs2 rs1 s := by
  intro pa s1 hwf ha ht hr s2
  have hwf2 : s2.mem.wf = true := memoryEvent_mem_wf ht hwf
  let old : Word := Spec.word4 s2.mem pa.toNat
  let new : Word := f old (readReg s rs2)
  let t : State := advance 4#32 (writeReg rd old (ramWrite pa 4 new s2))
  have ht' : exec i s = .next t := by
    rw [← (translate_private ht).cfg] at hr
    rw [hexec, amo_ram ((aligned_iff _ .word).mpr ha) ht hr, readBytes_word]
  have hmem : t.mem = (ramWrite pa 4 new s2).mem := by rw [advance_mem, writeReg_mem]
  have hrsv : t.rsv = (ramWrite pa 4 new s2).rsv := by rw [advance_rsv, writeReg_rsv]
  have hcommits : Commits rd old 4#32 s s2 t :=
    commits_advance_writeReg (memoryEvent_private ht) (ramWrite_eq pa 4 new s2) rd old 4#32
  obtain ⟨hwrote, hpc, hhart, hshared, htlb⟩ := hcommits
  refine ⟨t, ht', hwrote, ?_, fun b hb => ?_, ?_, hpc, hhart, hshared, htlb.trans (interleave_tlb s1)⟩
  · rw [hg, hmem, ramWrite_mem, word4_writeBytes _ _ hwf2]
  · rw [hmem, ramWrite_bytesOutside pa 4 new s2 b hb]
  · rw [Spec.StoreKeepsReservation, hrsv]
    exact ramWrite_keepsReservation pa 4 new s2

section
variable {α : Type} [LinearOrder α] {value : Word → α} {toWord : α → Word} {x y : Word} {b : Bool}

/-- The word of the smaller value is the word the test `x < y` of the machine chooses (R334, R336). -/
theorem toWord_min (hword : ∀ z, toWord (value z) = z) (hb : b = true ↔ value x < value y) :
    toWord (min (value x) (value y)) = if b then x else y := by
  split
  next h => rw [min_eq_left (hb.mp h).le, hword]
  next h => rw [min_eq_right (not_lt.mp (mt hb.mpr h)), hword]

/-- The word of the larger value is the word the test `y < x` of the machine chooses (R335, R337). -/
theorem toWord_max (hword : ∀ z, toWord (value z) = z) (hb : b = true ↔ value y < value x) :
    toWord (max (value x) (value y)) = if b then x else y := by
  split
  next h => rw [max_eq_left (hb.mp h).le, hword]
  next h => rw [max_eq_right (not_lt.mp (mt hb.mpr h)), hword]

end

/-- Settles O37: each AMO is one AMO operation, and its operation on words is the machine's own. -/
theorem amoResults : Obligations.AmoResults := by
  intro s aq rl rd rs2 rs1
  refine ⟨?swap, ?add, ?xor, ?and, ?or, ?min, ?max, ?minu, ?maxu⟩
  case swap => exact amo_onRam (f := amoSwapValue) rfl fun _ _ => rfl
  case add => exact amo_onRam (f := amoAddValue) rfl word_toInt_add
  case xor => exact amo_onRam (f := amoXorValue) rfl fun _ _ => rfl
  case and => exact amo_onRam (f := amoAndValue) rfl fun _ _ => rfl
  case or => exact amo_onRam (f := amoOrValue) rfl fun _ _ => rfl
  case min => exact amo_onRam (f := amoMinValue) rfl fun _ _ => toWord_min word_toInt BitVec.slt_iff_toInt_lt
  case max => exact amo_onRam (f := amoMaxValue) rfl fun _ _ => toWord_max word_toInt BitVec.slt_iff_toInt_lt
  case minu =>
    exact amo_onRam (f := amoMinuValue) rfl fun _ _ =>
      toWord_min (toWord := fun n : Nat => Spec.word n) word_toNat BitVec.ult_iff_toNat_lt
  case maxu =>
    exact amo_onRam (f := amoMaxuValue) rfl fun _ _ =>
      toWord_max (toWord := fun n : Nat => Spec.word n) word_toNat BitVec.ult_iff_toNat_lt

/-! ## LR.W and SC.W one after the other (R326, R327, R339) -/

theorem word4_congr {s t : State} (h : Spec.SameBytes s t) (a : Nat) : Spec.word4 t.mem a = Spec.word4 s.mem a := by
  simp only [Spec.word4, h _]

theorem readReg_of_wrote_other {rd r : Reg} {v : Word} {s t : State} (h : Spec.Wrote rd v s t) (hr : rd ≠ r) :
    readReg t r = readReg s r := by
  rw [h r, if_neg hr.symm]
  split
  next h0 => rw [h0, readReg_zero]
  next => rfl

theorem readReg_of_wrote_same {rd : Reg} {v : Word} {s t : State} (h : Spec.Wrote rd v s t) (hrd : rd ≠ 0#5) :
    readReg t rd = v := by
  rw [h rd, if_neg hrd, if_pos rfl]

theorem ExecEffect.mem_wf {i : Instr} {s t : State} (h : ExecEffect i s t) (hwf : s.mem.wf = true) :
    t.mem.wf = true := by
  cases h with
  | commit rd v next hr _ => simpa using hr.mem_wf hwf
  | reserve v _ hr _ _ => simpa using hr.mem_wf hwf
  | trap e tval _ hr => simpa using hr.mem_wf hwf
  | csr | trapReturn => simpa using hwf
  | interrupt => simpa [takeInterrupt] using hwf
  | park => exact hwf

/-- `va` is the aligned address of a word of RAM that loads and stores reach untranslated, and no other agent acts
inside an instruction. -/
structure BareWord (va : Word) (s : State) : Prop where
  wf : s.mem.wf = true
  alone : s.interleaved = []
  bare : effPriv .load s = .machine ∨ s.csr.satp.getLsbD 31 = false
  aligned : va.toNat % 4 = 0
  ram : inRam s.cfg (va.zeroExtend 34) 4 = true

section
variable {va : Word} {s : State} {rd rs2 rs1 : Reg}

/-- An instruction that keeps the hart's state and the shared state keeps such a word. -/
theorem BareWord.next {t : State} {i : Instr} (h : BareWord va s) (hexec : exec i s = .next t)
    (hhart : Spec.SameHart s t) (hshared : Spec.SameShared s t) : BareWord va t where
  wf := (exec_effect hexec).mem_wf h.wf
  alone := hshared.interleaved.trans h.alone
  bare := by simpa only [effPriv, hhart.csr, hhart.priv] using h.bare
  aligned := h.aligned
  ram := by rw [hhart.cfg]; exact h.ram

theorem BareWord.translate_load (h : BareWord va s) : Machine.translate va .load s = .ok (va.zeroExtend 34) s :=
  translate_bare h.bare.symm

theorem BareWord.translate_store (h : BareWord va s) : Machine.translate va .store s = .ok (va.zeroExtend 34) s :=
  translate_bare (t := .store) h.bare.symm

theorem lrW_bareWord (h : BareWord va s) (hva : readReg s rs1 = va) :
    ∃ t, exec (.lrW false false rd rs1) s = .next t ∧ BareWord va t ∧ t.rsv = some (va.zeroExtend 34) ∧
      (∀ r, rd ≠ r → readReg t r = readReg s r) ∧ Spec.word4 t.mem va.toNat = Spec.word4 s.mem va.toNat := by
  subst hva
  obtain ⟨t, hexec, hwrote, hrsv, -, hhart, hshared, -, hbytes⟩ :=
    loadReservedResult s false false rd rs1 _ _ h.aligned h.translate_load h.ram
  rw [interleave_of_nil h.alone] at hshared hbytes
  exact ⟨t, hexec, h.next hexec hhart hshared, hrsv, fun _ => readReg_of_wrote_other hwrote, word4_congr hbytes _⟩

theorem scW_bareWord_of_reserved (h : BareWord va s) (hva : readReg s rs1 = va) (hrd : rd ≠ 0#5)
    (hrsv : s.rsv = some (va.zeroExtend 34)) :
    ∃ t, exec (.scW false false rd rs2 rs1) s = .next t ∧ readReg t rd = 0#32 ∧
      Spec.word4 t.mem va.toNat = readReg s rs2 := by
  subst hva
  obtain ⟨t, hexec, -, -, -, -, -, hsuccess, -⟩ :=
    storeConditionalResult s false false rd rs2 rs1 _ _ h.wf h.aligned h.translate_store h.ram
  rw [interleave_of_nil h.alone, toNat_zeroExtend_phys] at hsuccess
  obtain ⟨hwrote, hword, -⟩ := hsuccess hrsv
  exact ⟨t, hexec, readReg_of_wrote_same hwrote hrd, hword⟩

theorem scW_bareWord_of_unreserved (h : BareWord va s) (hva : readReg s rs1 = va) (hrd : rd ≠ 0#5)
    (hrsv : s.rsv = none) :
    ∃ t, exec (.scW false false rd rs2 rs1) s = .next t ∧ readReg t rd = 1#32 ∧
      Spec.word4 t.mem va.toNat = Spec.word4 s.mem va.toNat := by
  subst hva
  obtain ⟨t, hexec, -, -, -, -, -, -, hfailure⟩ :=
    storeConditionalResult s false false rd rs2 rs1 _ _ h.wf h.aligned h.translate_store h.ram
  rw [interleave_of_nil h.alone, hrsv] at hfailure
  obtain ⟨hwrote, hbytes⟩ := hfailure nofun
  exact ⟨t, hexec, readReg_of_wrote_same hwrote hrd, word4_congr hbytes _⟩

/-- An AMO on the reserved word clears the reservation, its own hart's too (R323). -/
theorem amoaddW_bareWord (h : BareWord va s) (hva : readReg s rs1 = va) (hrsv : s.rsv = some (va.zeroExtend 34)) :
    ∃ t, exec (.amoaddW false false rd rs2 rs1) s = .next t ∧ BareWord va t ∧ t.rsv = none ∧
      (∀ r, rd ≠ r → readReg t r = readReg s r) ∧
      Spec.word4 t.mem va.toNat = Spec.word4 s.mem va.toNat + readReg s rs2 := by
  subst hva
  obtain ⟨-, hadd, -⟩ := amoResults s false false rd rs2 rs1
  obtain ⟨t, hexec, hwrote, hword, -, ⟨hclears, -⟩, -, hhart, hshared, -⟩ :=
    hadd _ _ h.wf h.aligned h.translate_store h.ram
  rw [interleave_of_nil h.alone] at hword hclears hshared
  rw [toNat_zeroExtend_phys] at hword
  have hoverlaps : Spec.Overlaps s.rsv ((readReg s rs1).zeroExtend 34) 4 := ⟨_, hrsv, by omega, by omega⟩
  exact ⟨t, hexec, h.next hexec hhart hshared, hclears hoverlaps, fun _ => readReg_of_wrote_other hwrote,
    hword.trans (word_toInt_add ..)⟩

end

/-- Settles O38: the reservation of LR.W stands at the SC.W right after it; the AMO in between clears it. -/
theorem loadReservedStoreConditional : Obligations.LoadReservedStoreConditional := by
  intro s rd1 rd2 rd3 rs1 rs2 hwf halone hbare ha hr h1 h2 h3 _ hrd3
  have hs : BareWord (readReg s rs1) s := ⟨hwf, halone, hbare, ha, hr⟩
  obtain ⟨t, hlr, ht, htrsv, htregs, htword⟩ := lrW_bareWord (rd := rd1) hs rfl
  have hbase : readReg t rs1 = readReg s rs1 := htregs rs1 h1
  have hsrc : readReg t rs2 = readReg s rs2 := htregs rs2 h2
  obtain ⟨u, hsc, hu, huword⟩ := scW_bareWord_of_reserved (rs2 := rs2) ht hbase hrd3 htrsv
  obtain ⟨v, hamo, hv, hvrsv, hvregs, hvword⟩ := amoaddW_bareWord (rd := rd2) (rs2 := rs2) ht hbase htrsv
  have hbase' : readReg v rs1 = readReg s rs1 := (hvregs rs1 h3).trans hbase
  obtain ⟨w, hsc', hw, hwword⟩ := scW_bareWord_of_unreserved (rs2 := rs2) hv hbase' hrd3 hvrsv
  exact ⟨t, u, v, w, hlr, hsc, hu, huword.trans hsrc, hamo, hsc', hw, by rw [hwword, hvword, htword, hsrc]⟩

end Sys2Proof.Machine
end

section
/-! The illegal halfwords (R182, R183, R379): where each part of the 16-bit decoder finds no instruction, or C.ILLEGAL. -/

namespace Sys2Proof

/-- The answer of the decoder that stands for an illegal halfword: a rejection, or C.ILLEGAL. -/
def AnswersIllegal (r : Except Reject Instr) : Prop := (∃ e, r = .error e) ∨ r = .ok .cIllegal

@[simp] theorem answersIllegal_error (e : Reject) : AnswersIllegal (.error e) := .inl ⟨e, rfl⟩

@[simp] theorem answersIllegal_ok {i : Instr} : AnswersIllegal (.ok i) ↔ i = .cIllegal := by
  simp [AnswersIllegal]

/-- One bit that is not 0 is 1, as the rows of R379 say it. -/
theorem bit_ne_zero_iff {b : BitVec 1} : b ≠ 0#1 ↔ b = 1#1 := by
  revert b; decide

/-- The funct3 of the compressed floating-point loads and stores are the odd ones (R183). -/
theorem funct3_odd_iff {f : BitVec 3} :
    (f = 1#3 ∨ f = 3#3 ∨ f = 5#3 ∨ f = 7#3) ↔ f ≠ 0#3 ∧ f ≠ 2#3 ∧ f ≠ 4#3 ∧ f ≠ 6#3 := by
  revert f; decide

theorem cImm6_eq_zero_iff {h : Half} : cImm6 h = 0#6 ↔ cBit12 h = 0#1 ∧ cRs2 h = 0#5 :=
  append_inj_iff (c := 0#1) (d := 0#5)

section
variable {h : Half}

/-! ## The rows of R379, quadrant by quadrant -/

theorem illegalHalf_iff_of_quadrant0 (hq : cQuadrant h = 0#2) : Spec.IllegalHalf h ↔
    (cFunct3 h = 0#3 ∧ h.extractLsb' 5 8 = 0#8) ∨
    (cFunct3 h = 1#3 ∨ cFunct3 h = 3#3 ∨ cFunct3 h = 5#3 ∨ cFunct3 h = 7#3) ∨ cFunct3 h = 4#3 := by
  unfold cQuadrant at hq
  simp [Spec.IllegalHalf, hq, cFunct3]

theorem illegalHalf_iff_of_quadrant1 (hq : cQuadrant h = 1#2) : Spec.IllegalHalf h ↔
    (cFunct3 h = 3#3 ∧ cBit12 h = 0#1 ∧ cRs2 h = 0#5) ∨
    (cFunct3 h = 4#3 ∧ h.extractLsb' 10 2 ≠ 2#2 ∧ cBit12 h = 1#1) := by
  have hops {b : BitVec 2} : b ≠ 2#2 ↔ (b = 0#2 ∨ b = 1#2) ∨ b = 3#2 := by revert b; decide
  unfold cQuadrant at hq
  simp [Spec.IllegalHalf, hq, hops, cFunct3, cBit12, cRs2, or_and_right, and_or_left]

theorem illegalHalf_iff_of_quadrant2 (hq : cQuadrant h = 2#2) : Spec.IllegalHalf h ↔
    (cFunct3 h = 0#3 ∧ cBit12 h = 1#1) ∨
    (cFunct3 h = 1#3 ∨ cFunct3 h = 3#3 ∨ cFunct3 h = 5#3 ∨ cFunct3 h = 7#3) ∨
    (cFunct3 h = 2#3 ∧ cRd h = 0#5) ∨
    (cFunct3 h = 4#3 ∧ cBit12 h = 0#1 ∧ cRd h = 0#5 ∧ cRs2 h = 0#5) := by
  unfold cQuadrant at hq
  simp [Spec.IllegalHalf, hq, cFunct3, cBit12, cRd, cRs2]

/-! ## The decoder, quadrant by quadrant -/

/-- Quadrant 00, funct3 000: C.ILLEGAL and the reserved encodings are the forms of C.ADDI4SPN whose immediate is 0. -/
theorem decodeQ0_illegal_iff (hq : cQuadrant h = 0#2) : AnswersIllegal (decodeQ0 h) ↔ Spec.IllegalHalf h := by
  rw [illegalHalf_iff_of_quadrant0 hq, funct3_odd_iff]
  unfold decodeQ0
  split
  case h_1 h3 =>
    split_ifs with h0 hspn
    · simp [h0, cFunct3]
    · simp [h3, cImmSpn_eq_zero_iff.1 hspn]
    · simpa [h3] using mt cImmSpn_eq_zero_iff.2 hspn
  case h_2 h3 | h_3 h3 | h_4 h3 => simp [h3]
  case h_5 h0 h2 h6 h4 => exact iff_of_true (answersIllegal_error _) (.inr (.inl ⟨h0, h2, h4, h6⟩))

/-- Among the arithmetic forms only C.ANDI has a use for bit 12 (R361 to R367). -/
theorem decodeQ1Alu_illegal_iff :
    AnswersIllegal (decodeQ1Alu h) ↔ h.extractLsb' 10 2 ≠ 2#2 ∧ cBit12 h = 1#1 := by
  rw [← bit_ne_zero_iff]
  unfold decodeQ1Alu
  split
  case h_1 hop => split_ifs with h12 <;> simp [hop, h12]
  case h_2 hop => split_ifs with h12 <;> simp [hop, h12]
  case h_3 hop => simp [hop]
  case h_4 hop =>
    split_ifs with h12
    · split <;> simp [h12]
    · simpa [h12] using hop

theorem decodeQ1_illegal_iff (hq : cQuadrant h = 1#2) : AnswersIllegal (decodeQ1 h) ↔ Spec.IllegalHalf h := by
  rw [illegalHalf_iff_of_quadrant1 hq, ← cImm6_eq_zero_iff]
  unfold decodeQ1
  split
  case h_1 h3 => split_ifs <;> simp [h3]
  case h_4 h3 => split_ifs with himm <;> simp [h3, himm]
  case h_5 h3 => simp [h3, decodeQ1Alu_illegal_iff]
  case h_2 h3 | h_3 h3 | h_6 h3 | h_7 h3 => simp [h3]
  case h_8 _ _ _ h3 h4 _ _ => simp [show cFunct3 h ≠ 3#3 from h3, show cFunct3 h ≠ 4#3 from h4]

theorem decodeQ2Jump_illegal_iff :
    AnswersIllegal (decodeQ2Jump h) ↔ cBit12 h = 0#1 ∧ cRd h = 0#5 ∧ cRs2 h = 0#5 := by
  unfold decodeQ2Jump
  split_ifs <;> simp [*]

theorem decodeQ2_illegal_iff (hq : cQuadrant h = 2#2) : AnswersIllegal (decodeQ2 h) ↔ Spec.IllegalHalf h := by
  rw [illegalHalf_iff_of_quadrant2 hq, funct3_odd_iff, ← bit_ne_zero_iff]
  unfold decodeQ2
  split
  case h_1 h3 => split_ifs with h12 <;> simp [h3, h12]
  case h_2 h3 => split_ifs with hrd <;> simp [h3, hrd]
  case h_3 h3 => simp [h3, decodeQ2Jump_illegal_iff]
  case h_4 h3 => simp [h3]
  case h_5 h0 h2 h4 h6 => exact iff_of_true (answersIllegal_error _) (.inr (.inl ⟨h0, h2, h4, h6⟩))

end

/-- Settles O14: in each quadrant the decoder finds no instruction exactly where a row of R379 says so. -/
theorem illegalHalfwords : Obligations.IllegalHalfwords := by
  intro h hlow
  change AnswersIllegal (decode16 h) ↔ Spec.IllegalHalf h
  unfold decode16
  split
  next hq => exact decodeQ0_illegal_iff hq
  next hq => exact decodeQ1_illegal_iff hq
  next hq => exact decodeQ2_illegal_iff hq
  next h0 h1 h2 => exact absurd (eq_three_of_ne h0 h1 h2) hlow

end Sys2Proof
end

section
/-! The compressed computational instructions (R350, R352 to R367, R371, R374, R377): the words of their immediates, and
the words they write back. -/

namespace Sys2Proof.Machine

/-- A zero-extended immediate has the value of its bits (R352). -/
theorem word_toNat_add_zext {n : Nat} (hn : n ≤ 32) (x : Word) (imm : BitVec n) :
    Spec.word (x.toNat + imm.toNat) = x + zext imm := by
  have himm : (zext imm).toNat = imm.toNat := BitVec.toNat_setWidth_of_le hn
  rw [word_add, word_toNat, ← himm, word_toNat]

/-- C.LUI loads its immediate shifted left by twelve, with its sign (R360). -/
theorem word_cLuiImm (imm : BitVec 6) : Spec.word (imm.toInt * 4096) = cLuiImm imm := by
  revert imm; decide

/-- An expansion that adds to x0 has the other summand as its result (R21, R358, R374). -/
theorem readReg_zero_add (s : State) (v : Word) : v = readReg s 0#5 + v := by
  rw [readReg_zero, BitVec.zero_add]

/-- Settles O23: each instruction writes back the word of its expansion and goes on by two bytes; C.NOP writes x0. -/
theorem compressedArithmeticResults : Obligations.CompressedArithmeticResults := by
  intro s rd rs2 imm shamt uimm10 x y sp next
  refine ⟨?cAddi4spn, ?cNop, ?cAddi, ?cLi, ?cAddi16sp, ?cLui, ?cSrli, ?cSrai, ?cAndi, ?cSub, ?cXor, ?cOr, ?cAnd, ?cSlli,
    ?cMv, ?cAdd⟩
  case cAddi4spn => exact writeBack_computes rfl (word_toNat_add_zext (by decide) sp uimm10)
  case cNop => exact goes_of_computes_zero (writeBack_computes rfl rfl)
  case cAddi => exact writeBack_computes rfl (word_toInt_add_sext x imm)
  case cLi => exact writeBack_computes rfl (readReg_zero_add s (sext imm))
  case cAddi16sp => exact writeBack_computes rfl (word_toInt_add_sext sp uimm10)
  case cLui => exact writeBack_computes rfl (word_cLuiImm imm)
  case cSrli => exact writeBack_computes rfl (word_ushiftRight x shamt.toNat)
  case cSrai => exact writeBack_computes rfl (word_sshiftRight x shamt.toNat)
  case cAndi | cXor | cOr | cAnd => exact writeBack_computes rfl rfl
  case cSub => exact writeBack_computes rfl (word_toInt_sub x y)
  case cSlli => exact writeBack_computes rfl (word_shiftLeft x shamt.toNat)
  case cMv => exact writeBack_computes rfl (readReg_zero_add s y)
  case cAdd => exact writeBack_computes rfl (word_toInt_add x y)

end Sys2Proof.Machine
end

section
/-! System instructions that trap (R400 to R403, R408, R375): the exception is the instruction's whole effect. -/

namespace Sys2Proof.Machine

/-- An instruction that does no more than raise an exception ends in the trap of that exception, by its code. -/
theorem traps_of_raise {i : Instr} {s : State} {e : Exception} {c : Nat} {tv : Word}
    (hexec : exec i s = .next (raiseException e tv s)) (hcode : e.code = c) : Spec.Traps (exec i s) c tv s s := by
  subst hcode
  exact hexec ▸ raiseException_traps (.refl s) e tv

/-- Settles O41: each is one raise, and the code of ECALL's exception is that of the current privilege. -/
theorem callsAndBreakpointsTrap : Obligations.CallsAndBreakpointsTrap := fun s =>
  have hcall : (environmentCall s.priv).code = match s.priv with | .user => 8 | .supervisor => 9 | .machine => 11 := by
    cases s.priv <;> rfl
  ⟨traps_of_raise rfl hcall, traps_of_raise rfl rfl, traps_of_raise rfl rfl⟩

/-! ## Below the privilege of an instruction (R400, R403, R408) -/

theorem xRet_of_above {x : Priv} {s : State} (h : x.above s.priv = true) (insn : Word) :
    xRet x insn s = .next (raiseException .illegalInstruction insn s) := if_pos h

theorem execSfenceVma_of_user {s : State} (h : s.priv = .user) (rs1 rs2 : Reg) : execSfenceVma rs1 rs2 s =
    .next (raiseException .illegalInstruction (encode (.sfenceVma rs1 rs2)).bits s) :=
  if_pos (by rw [h]; rfl)

theorem above_of_ne_machine {p : Priv} (h : p ≠ .machine) : Priv.above .machine p = true := by
  cases p with
  | user | supervisor => rfl
  | machine => exact absurd rfl h

/-- Between rs1 and the opcode, the word of SFENCE.VMA is zero: its funct3 and its rd (R173, R408). -/
theorem encode_sfenceVma_bits (rs1 rs2 : Reg) : (encode (.sfenceVma rs1 rs2)).bits =
    0b0001001#7 ++ rs2 ++ rs1 ++ 0b00000000#8 ++ 0b1110011#7 :=
  congrArg (· ++ 0b1110011#7) (BitVec.append_assoc (x₁ := 0b0001001#7 ++ rs2 ++ rs1) (x₂ := 0#3) (x₃ := 0#5))

/-- Settles O43: below its privilege each raises IllegalInstruction with its own word. -/
theorem privilegedInstructionsTrap : Obligations.PrivilegedInstructionsTrap := by
  intro s rs1 rs2
  refine ⟨fun hu => ?sret, fun hm => ?mret, fun hu => ?sfenceVma⟩
  case sret => exact traps_of_raise (xRet_of_above (by rw [hu]; rfl) _) rfl
  case mret => exact traps_of_raise (xRet_of_above (above_of_ne_machine hm) _) rfl
  case sfenceVma =>
    rw [← encode_sfenceVma_bits]
    exact traps_of_raise (execSfenceVma_of_user hu rs1 rs2) rfl

end Sys2Proof.Machine
end

section
/-! The trap returns (R403 to R406): the fields of `status` after a return, and where the return goes. -/

namespace Sys2Proof.Machine

/-! ## The fields of `status` after a return (R403) -/

/-- A bit of `status` outside xPP: xIE has xPIE, xPIE is 1, and every other bit is as it was. -/
theorem getLsbD_retStatus {x : Priv} {j : Nat} (hj : j < 32) (hm : x = .machine → j ≠ 11 ∧ j ≠ 12)
    (hs : x = .supervisor → j ≠ 8) (w : Word) : (retStatus x w).getLsbD j =
      if pieBit x = j then true else if ieBit x = j then statusPIE w x else w.getLsbD j := by
  rw [retStatus, getLsbD_setPP hj hm hs, getLsbD_setBit _ _ _ _ hj, getLsbD_setBit _ _ _ _ hj]

theorem retStatus_IE (w : Word) (x : Priv) : statusIE (retStatus x w) x = statusPIE w x := by
  rw [statusIE, getLsbD_retStatus (ieBit_lt x) (by rintro rfl; decide) (by rintro rfl; decide),
    if_neg (ieBit_ne_pieBit x).symm, if_pos rfl]

theorem retStatus_PIE (w : Word) (x : Priv) : statusPIE (retStatus x w) x = true := by
  rw [statusPIE, getLsbD_retStatus (pieBit_lt x) (by rintro rfl; decide) (by rintro rfl; decide), if_pos rfl]

theorem retStatus_SPP (w : Word) : statusSPP (retStatus .supervisor w) = false :=
  getLsbD_setBit _ 8 false 8 (by decide)

/-! ## The mode a return goes to (R27, R403) -/

theorem code_privOfCode {c : BitVec 2} (h : c ≠ 2#2) : (privOfCode c).code = c := by
  revert c; decide

/-! ## The return (R403 to R406) -/

theorem exec_trapReturn {i : Instr} {x : Priv} {s : State}
    (hi : (i, x) ∈ [(Instr.uret, Priv.user), (.sret, .supervisor), (.mret, .machine)])
    (hx : x.code.toNat ≤ s.priv.code.toNat) : exec i s = .next (trapReturn x s) := by
  have hret : xRet x (encode i).bits s = .next (trapReturn x s) :=
    if_neg (by rw [Priv.above_eq_false_iff.mpr hx]; decide)
  simp only [List.mem_cons, Prod.mk.injEq, List.not_mem_nil, or_false] at hi
  rcases hi with ⟨rfl, rfl⟩ | ⟨rfl, rfl⟩ | ⟨rfl, rfl⟩ <;> exact hret

/-- Settles O42: the return is `trapReturn`, whose `status` the lemmas above give field by field. -/
theorem trapReturnResults : Obligations.TrapReturnResults := by
  intro s i x hi hx hmpp
  refine ⟨trapReturn x s, exec_trapReturn hi hx, ?ie, ?pie, ?machine, ?supervisor, ?user, ?otherBits, ?csr, ?rest⟩
  case ie => rw [trapReturn_csr]; exact retStatus_IE ..
  case pie => rw [trapReturn_csr]; exact retStatus_PIE ..
  case machine =>
    rintro rfl
    rw [trapReturn_csr, trapReturn_priv]
    exact ⟨retStatus_MPP .., code_privOfCode hmpp⟩
  case supervisor =>
    rintro rfl
    rw [trapReturn_csr, trapReturn_priv]
    exact ⟨retStatus_SPP .., rfl⟩
  case user =>
    rintro rfl
    exact trapReturn_priv ..
  case otherBits =>
    intro j hj hie hpie hm hs
    rw [trapReturn_csr, getLsbD_retStatus hj hm hs, if_neg hpie.symm, if_neg hie.symm]
  case csr => simp
  case rest => exact ⟨by simp, trapReturn_tlb .., by simp, by simp, fun r => by simp, fun a => by simp, by simp⟩

end Sys2Proof.Machine
end

section
/-! The interrupt scan in the words of the specification (R461 to R465), and WFI (R407). -/

namespace Sys2Proof.Machine

/-! ## The scan (R461, R463 to R465) -/

theorem Priv.above_iff {p q : Priv} : p.above q = true ↔ q.code.toNat < p.code.toNat := by
  simp [Priv.above, BitVec.ult]

/-- For an interrupt of the current mode, its level's enable is that of the mode. -/
theorem fires_iff (i : Nat) (wfi : Bool) (s : State) : fires i wfi s = true ↔ Spec.Fires wfi i s := by
  have hlevel : interruptTarget i s = Spec.interruptLevel i s := rfl
  have henabled (p : Priv) : (p = s.priv ∧ (statusIE s.csr.status p = true ∨ wfi = true)) ↔
      (p = s.priv ∧ (wfi = true ∨ statusIE s.csr.status s.priv = true)) :=
    and_congr_right fun h => by rw [h, or_comm]
  simp only [fires, Spec.Fires, hlevel, Bool.and_eq_true, Bool.or_eq_true, decide_eq_true_eq, Priv.above_iff, henabled,
    and_assoc]

/-- The scan finds the first interrupt of the order that fires. -/
theorem interruptScan_eq_some_iff (wfi : Bool) (i : Nat) (s : State) :
    interruptScan wfi s = some i ↔ Spec.FirstFiring wfi i s := by
  have hnot (j : Nat) : (!fires j wfi s) = true ↔ ¬ Spec.Fires wfi j s := by simp [← fires_iff]
  simp only [interruptScan, List.find?_eq_some_iff_append, fires_iff, hnot]
  constructor
  · rintro ⟨hi, before, after, horder, hbefore⟩
    exact ⟨before, after, horder, hi, hbefore⟩
  · rintro ⟨before, after, horder, hi, hbefore⟩
    exact ⟨hi, before, after, horder, hbefore⟩

theorem interruptScan_eq_none_iff (wfi : Bool) (s : State) : interruptScan wfi s = none ↔ Spec.NoneFires wfi s := by
  simp only [interruptScan, Spec.NoneFires, List.find?_eq_none, fires_iff]
  rfl

theorem mem_scanOrder_of_firstFiring {wfi : Bool} {i : Nat} {s : State} (h : Spec.FirstFiring wfi i s) :
    i ∈ Spec.scanOrder := by
  obtain ⟨before, after, horder, -⟩ := h
  simp [horder]

/-- The cause of an interrupt: bit 31 and the interrupt's number (R440). -/
theorem interruptCause_eq {i : Nat} (h : i ∈ Spec.scanOrder) :
    0x80000000#32 ||| BitVec.ofNat 32 i = Spec.interruptCause i := by
  have key : ∀ j ∈ Spec.scanOrder, 0x80000000#32 ||| BitVec.ofNat 32 j = Spec.interruptCause j := by decide
  exact key i h

/-- Taking an interrupt of the scan is its trap entry at the level of the delegation registers (R450, R463). -/
theorem takeInterrupt_trapEntry {i : Nat} (h : i ∈ Spec.scanOrder) (ev : Word) (s : State) :
    Spec.TrapEntry (Spec.interruptLevel i s) (Spec.interruptCause i) 0#32 ev s (takeInterrupt i ev s) := by
  rw [← interruptCause_eq h]
  exact takeTrap_trapEntry ..

/-! ## WFI (R407) -/

theorem exec_wfi_of_some {i : Nat} {s : State} (h : interruptScan true (eventFold s) = some i) :
    exec .wfi s = .next (takeInterrupt i (s.pc + 4#32) (eventFold s)) := by
  change execWfi s = _
  simp only [execWfi, h, eventFold_pc]

theorem exec_wfi_of_none {s : State} (h : interruptScan true (eventFold s) = none) :
    exec .wfi s = .next { eventFold s with parked := true } := by
  change execWfi s = _
  simp only [execWfi, h]

/-- Settles O44: the scan after the fold finds the interrupt, and WFI takes it; the fold leaves the delegation. -/
theorem waitForInterruptTakes : Obligations.WaitForInterruptTakes := by
  intro s i h
  have hscan : interruptScan true (eventFold s) = some i := by
    rw [eventFold_eq_folded]
    exact (interruptScan_eq_some_iff ..).mpr h
  refine ⟨_, exec_wfi_of_some hscan, ?_⟩
  rw [eventFold_eq_folded]
  exact takeInterrupt_trapEntry (mem_scanOrder_of_firstFiring h) (s.pc + 4#32) (Spec.folded s)

/-- Settles O45: the scan after the fold finds nothing, and WFI parks the folded state. -/
theorem waitForInterruptParks : Obligations.WaitForInterruptParks := by
  intro s h
  have hscan : interruptScan true (eventFold s) = none := by
    rw [eventFold_eq_folded]
    exact (interruptScan_eq_none_iff ..).mpr h
  refine ⟨_, exec_wfi_of_none hscan, ?_⟩
  rw [eventFold_eq_folded]
  refine ⟨rfl, rfl, rfl, rfl, rfl, fun _ => rfl, fun _ => rfl, ?_⟩
  simp [Spec.folded]

end Sys2Proof.Machine
end

section
/-! SFENCE.VMA where the privilege allows it (R408, R132, R133). -/

namespace Sys2Proof.Machine

theorem execSfenceVma_of_ne_user {s : State} (h : s.priv ≠ .user) (rs1 rs2 : Reg) :
    execSfenceVma rs1 rs2 s = .next (advance 4#32 (flushTlb s)) := by
  refine if_neg ?_
  cases hp : s.priv with
  | user => exact absurd hp h
  | supervisor | machine => decide

/-- With no valid entry every lookup misses (R130). -/
theorem tlbLookup_of_nil {s : State} (h : s.tlb = []) (va : Word) (ty : AccessType) : tlbLookup va ty s = none := by
  simp only [tlbLookup, h, sparseGet]

/-- Settles O46: the instruction empties the TLB and goes on, and with an empty TLB a translation walks. -/
theorem sfenceFlushes : Obligations.SfenceFlushes := by
  intro s rs1 rs2 hpriv
  have hcontrol : Spec.SameControl s (advance 4#32 (flushTlb s)) :=
    ⟨by constructor <;> rfl, by constructor <;> rfl⟩
  exact ⟨_, execSfenceVma_of_ne_user hpriv rs1 rs2, fun _ => rfl, rfl, hcontrol, fun _ => rfl, fun _ => rfl, rfl,
    fun va ty hsatp heff => ⟨hsatp, heff, tlbLookup_of_nil rfl va ty⟩⟩

end Sys2Proof.Machine
end

section
/-! Trap entry and the delegation of exceptions (R450 to R453): the effect field by field and the target level are laws of
the layer on trap entry. -/

namespace Sys2Proof.Machine

/-- Settles O39: each field of the state that `takeTrap` builds is the one the specification names. -/
theorem trapEntryEffect : Obligations.TrapEntryEffect := takeTrap_trapEntry

/-- Settles O40: the two delegation tests of the machine, split by the current privilege. -/
theorem exceptionTargetRule : Obligations.ExceptionTargetRule := exceptionTarget_eq_exceptionLevel

end Sys2Proof.Machine
end

section
/-! A turn of the hart (R470): whose turn it is, when the event check is made and what it takes, and the instruction that
the fetched bytes decode to. -/

namespace Sys2Proof.Machine

/-! ## Whose turn it is (R471) -/

theorem machineLegal_of_params {s : State} (hp : paramsLegal s.cfg = true) (hid : s.csr.hartid.toNat < s.cfg.nharts) :
    machineLegal s = true := by
  simp [machineLegal, hp, hid]

theorem step_of_empty_agenda {s : State} (h : machineLegal s = true) (ha : s.agenda = []) : step s = hartStep s := by
  simp only [step, h, ha]; rfl

theorem step_of_hart_turn {s : State} {rest : List Turn} (h : machineLegal s = true) (ha : s.agenda = .hart :: rest) :
    step s = hartStep { s with agenda := rest } := by
  simp only [step, h, ha]; rfl

theorem step_of_agent_turn {s : State} {a : AgentAction} {rest : List Turn} (h : machineLegal s = true)
    (ha : s.agenda = .agent a :: rest) : step s = .next (agentAct { s with agenda := rest } a) := by
  simp only [step, h, ha]; rfl

/-- Striking a turn off an empty agenda leaves it, so the hart's turn is one case (log entry 5). -/
theorem step_eq_hartStep_tail {s : State} (h : machineLegal s = true)
    (ha : s.agenda = [] ∨ ∃ r, s.agenda = .hart :: r) : step s = hartStep { s with agenda := s.agenda.tail } := by
  rcases ha with hnil | ⟨r, hcons⟩
  · rw [step_of_empty_agenda h hnil, hnil, List.tail_nil, ← hnil]
  · rw [step_of_hart_turn h hcons, hcons, List.tail_cons]

/-! ## The event check (R464, R470) -/

theorem checksEvents_iff (s : State) :
    checksEvents s = true ↔ s.waitEvent = false ∧ s.evInt = true ∧ s.parked = false := by
  simp [checksEvents, and_assoc]

theorem wake_of_checksEvents {s : State} (h : checksEvents s = true) :
    wake s = { Spec.folded s with waitEvent := true } := by
  rw [wake, if_pos h, eventFold_eq_folded]; rfl

theorem wake_of_not_checksEvents {s : State} (h : ¬ checksEvents s = true) : wake s = { s with waitEvent := true } :=
  if_neg h

/-- The check takes the first interrupt of the scan that fires after the fold; the wake does not bear on the scan. -/
theorem boundaryInterrupt_eq_some {s : State} {i : Nat} (h : checksEvents s = true)
    (hi : Spec.FirstFiring false i (Spec.folded s)) : boundaryInterrupt s = some i := by
  rw [boundaryInterrupt, if_pos h, wake_of_checksEvents h]
  exact (interruptScan_eq_some_iff false i (Spec.folded s)).mpr hi

theorem boundaryInterrupt_eq_none {s : State} (h : checksEvents s = true → Spec.NoneFires false (Spec.folded s)) :
    boundaryInterrupt s = none := by
  unfold boundaryInterrupt
  split
  next hc =>
    rw [wake_of_checksEvents hc]
    exact (interruptScan_eq_none_iff false (Spec.folded s)).mpr (h hc)
  next => rfl

/-! ## One pass (R470) -/

theorem hartStep_of_parked {s : State} (hp : s.parked = true) (hw : s.waitEvent = true) : hartStep s = .next s :=
  if_pos (by rw [hp, hw]; rfl)

theorem hartStep_of_interrupt {s : State} {i : Nat} (hp : s.parked = false) (hi : boundaryInterrupt s = some i) :
    hartStep s = .next (takeInterrupt i s.pc (wake s)) := by
  simp [hartStep, hp, hi]

theorem hartStep_of_no_interrupt {s : State} (hp : ¬ (s.parked = true ∧ s.waitEvent = true))
    (hi : boundaryInterrupt s = none) : hartStep s = rearmOutcome (runInstruction (readyToFetch s)) := by
  rw [← Bool.and_eq_true] at hp
  rw [hartStep, if_neg hp, hi]; rfl

theorem hartStep_of_no_check {s : State} (hp : ¬ (s.parked = true ∧ s.waitEvent = true))
    (hc : ¬ checksEvents s = true) :
    hartStep s = rearmOutcome (runInstruction { s with waitEvent := true, parked := false }) := by
  rw [hartStep_of_no_interrupt hp (boundaryInterrupt_eq_none fun h => absurd h hc), readyToFetch,
    wake_of_not_checksEvents hc]

/-- Settles O57: the agenda gives the turn; the check, if it is made, takes the first interrupt that fires. -/
theorem eventCheck : Obligations.EventCheck := by
  intro s
  refine ⟨fun hp hid => ?turn, fun i hw he hpark hi => ?interrupt, fun hp hno => ?noCheck, hartStep_of_parked⟩
  case turn =>
    have hlegal := machineLegal_of_params hp hid
    exact ⟨step_of_empty_agenda hlegal, fun rest => step_of_hart_turn hlegal⟩
  case interrupt =>
    have hc := (checksEvents_iff s).mpr ⟨hw, he, hpark⟩
    refine ⟨_, hartStep_of_interrupt hpark (boundaryInterrupt_eq_some hc hi), ?_⟩
    rw [wake_of_checksEvents hc]
    exact takeInterrupt_trapEntry (mem_scanOrder_of_firstFiring hi) s.pc { Spec.folded s with waitEvent := true }
  case noCheck =>
    refine hartStep_of_no_check hp fun hc => ?_
    obtain ⟨hw, he, hpark⟩ := (checksEvents_iff s).mp hc
    simp [hw, he, hpark] at hno

/-! ## The instruction fetched (R170, R171) -/

theorem fetchInstruction_half {s s1 : State} {lo : Half} (h : fetch16 s.pc s = .ok lo s1) (hlo : cQuadrant lo ≠ 3#2) :
    fetchInstruction s = .ok (.half lo) s1 := by
  rw [fetchInstruction, h, Access.andThen, if_neg hlo]

theorem fetchInstruction_word {s s1 s2 : State} {lo hi : Half} (h : fetch16 s.pc s = .ok lo s1)
    (hlo : cQuadrant lo = 3#2) (h2 : fetch16 (s.pc + 2#32) s1 = .ok hi s2) :
    fetchInstruction s = .ok (.word (hi ++ lo)) s2 := by
  rw [fetchInstruction, h, Access.andThen, if_pos hlo, h2]; rfl

/-- Two bytes decode as the halfword they make, where its low bits are not 11. -/
theorem decodeRaw_of_decodeBytes_half {b0 b1 : Byte} {i : Instr} (hlo : cQuadrant (b1 ++ b0) ≠ 3#2)
    (h : decodeBytes [b0, b1] = .ok (i, [])) : decodeRaw (.half (b1 ++ b0)) = .ok i := by
  simp only [decodeBytes, if_neg hlo] at h
  split at h
  next j hj => cases h; exact hj
  next => cases h

/-- Four bytes decode as the word of their two halfwords, where the low bits of the first are 11. -/
theorem decodeRaw_of_decodeBytes_word {b0 b1 b2 b3 : Byte} {i : Instr} (hlo : cQuadrant (b1 ++ b0) = 3#2)
    (h : decodeBytes [b0, b1, b2, b3] = .ok (i, [])) :
    decodeRaw (.word ((b3 ++ b2 : Half) ++ (b1 ++ b0 : Half))) = .ok i := by
  have hword : (b3 ++ b2 ++ b1 ++ b0 : Word) = (b3 ++ b2 : Half) ++ (b1 ++ b0 : Half) :=
    BitVec.append_assoc (x₁ := b3 ++ b2) (x₂ := b1) (x₃ := b0)
  rw [decodeBytes, if_pos hlo, hword] at h
  split at h
  next j hj => cases h; exact hj
  next => cases h

/-- A fetch that succeeds reads the bits whose bytes the specification lists, and ends in the state of its last event. -/
theorem fetchInstruction_of_fetches {s t : State} {bytes : List Byte} {i : Instr} (h : Spec.Fetches s bytes t)
    (hd : decodeBytes bytes = .ok (i, [])) : ∃ raw, fetchInstruction s = .ok raw t ∧ decodeRaw raw = .ok i := by
  obtain ⟨pa, s1, ht, hr, ⟨hlo, rfl, rfl⟩ | ⟨hlo, qa, s3, ht2, hr2, rfl, rfl⟩⟩ := h
  · exact ⟨_, fetchInstruction_half (fetch16_of_inRam ht hr) hlo, decodeRaw_of_decodeBytes_half hlo hd⟩
  · have hcfg : (interleave s1).cfg = s.cfg := (interleave_cfg s1).trans (translate_private ht).cfg
    rw [← hcfg] at hr2
    exact ⟨_, fetchInstruction_word (fetch16_of_inRam ht hr) hlo (fetch16_of_inRam ht2 hr2),
      decodeRaw_of_decodeBytes_word hlo hd⟩

/-- The fetched bytes run as the instruction they decode to, on the state of the fetch's last event. -/
theorem runInstruction_of_fetches {s t : State} {bytes : List Byte} {i : Instr} (h : Spec.Fetches s bytes t)
    (hd : decodeBytes bytes = .ok (i, [])) : runInstruction s = exec i t := by
  obtain ⟨raw, hf, hraw⟩ := fetchInstruction_of_fetches h hd
  simp only [runInstruction, hf, hraw]

/-- The state in which a turn fetches: folded if the event check is made, the wake consumed (R470). -/
theorem readyToFetch_with_agenda (s : State) (l : List Turn) : readyToFetch { s with agenda := l } =
    { (if s.waitEvent = false ∧ s.evInt = true ∧ s.parked = false then Spec.folded s else s) with
      waitEvent := true, parked := false, agenda := l } := by
  rw [readyToFetch]
  by_cases hc : checksEvents s = true
  · rw [wake_of_checksEvents (s := { s with agenda := l }) hc, if_pos ((checksEvents_iff s).mp hc)]; rfl
  · rw [wake_of_not_checksEvents (s := { s with agenda := l }) hc, if_neg ((checksEvents_iff s).not.mp hc)]

/-- Settles O16: the hart's turn is one pass, which takes no interrupt and runs the bytes its fetch reads. -/
theorem stepRunsDecoded : Obligations.StepRunsDecoded := by
  intro s t i bytes hp hid ha hpark hnone s0 hfetch hd
  have hready : readyToFetch { s with agenda := s.agenda.tail } = s0 := readyToFetch_with_agenda s s.agenda.tail
  have hquiet : boundaryInterrupt { s with agenda := s.agenda.tail } = none := by
    refine boundaryInterrupt_eq_none fun hc => ?_
    obtain ⟨hw, he, hawake⟩ := (checksEvents_iff _).mp hc
    exact hnone hw he hawake
  rw [step_eq_hartStep_tail (machineLegal_of_params hp hid) ha,
    hartStep_of_no_interrupt (s := { s with agenda := s.agenda.tail }) hpark hquiet, hready,
    runInstruction_of_fetches hfetch hd]

/-! ## A woken WFI (R407, R470, R472) -/

/-- A fetch changes nothing of the hart's own state but the TLB (R14). -/
theorem fetches_private {s t : State} {bytes : List Byte} (h : Spec.Fetches s bytes t) : SamePrivate s t := by
  obtain ⟨pa, s1, ht, -, ⟨-, -, rfl⟩ | ⟨-, qa, s3, ht2, -, rfl, -⟩⟩ := h
  · exact (translate_private ht).trans (interleave_private s1)
  · exact ((translate_private ht).trans (interleave_private s1)).trans
      ((translate_private ht2).trans (interleave_private s3))

theorem decodeBytes_wfi : decodeBytes (Spec.rawBytes (encode .wfi)) = .ok (.wfi, []) :=
  decodeBytes_rawBytes (decodeRaw_encode (i := .wfi) rfl) []

/-- An interrupt taken right after the fold leaves no posted event to check again. -/
theorem rearm_takeInterrupt_eventFold (i : Nat) (ev : Word) (s : State) :
    rearm (takeInterrupt i ev (eventFold s)) = takeInterrupt i ev (eventFold s) :=
  if_neg (by simp [takeInterrupt])

/-- Settles O58: leaving a WFI no check is made; the WFI fetched again folds, scans and takes the interrupt itself. -/
theorem wokenWaitTakesInterrupt : Obligations.WokenWaitTakesInterrupt := by
  intro s s1 i hpark hwait hfetch hi
  have hscan : interruptScan true (eventFold s1) = some i := by
    rw [eventFold_eq_folded]
    exact (interruptScan_eq_some_iff ..).mpr hi
  have hpriv := fetches_private hfetch
  have hpc : s1.pc = s.pc := hpriv.pc
  have hlevel : Spec.interruptLevel i (Spec.folded s1) = Spec.interruptLevel i s := by
    change Spec.interruptLevel i s1 = _
    rw [Spec.interruptLevel, hpriv.csr]; rfl
  have hstep : hartStep s = .next (takeInterrupt i (s.pc + 4#32) (eventFold s1)) := by
    rw [hartStep_of_no_check (by simp [hwait]) (by simp [checksEvents, hpark]),
      runInstruction_of_fetches hfetch decodeBytes_wfi, exec_wfi_of_some hscan, rearmOutcome,
      rearm_takeInterrupt_eventFold, hpc]
  refine ⟨_, hstep, ?_⟩
  rw [eventFold_eq_folded, ← hlevel]
  exact takeInterrupt_trapEntry (mem_scanOrder_of_firstFiring hi) (s.pc + 4#32) (Spec.folded s1)

end Sys2Proof.Machine
end

section
/-! The turns of the other agents (R462, R466, R480 to R483): their actions, and what none of them changes (R14). -/

namespace Sys2Proof.Machine

/-- A byte that a device writes changes RAM at its own address only, and only inside RAM. -/
theorem readByte_deviceBytes_single (p : Config.Params) (v : Byte) (a b : Nat) {m : Memory} (h : m.wf = true) :
    readByte (deviceBytes p a m [v]) b =
      if b = a ∧ p.ramBase ≤ b ∧ b < p.ramBase + p.ramSize ∧ b < 2 ^ 32 then v else readByte m b := by
  simp only [deviceBytes]
  by_cases hb : b = a
  · subst hb
    simp only [true_and]
    split
    · exact readByte_writeByte_same h
    · rfl
  · rw [if_neg (c := b = a ∧ _) fun hc => hb hc.1]
    split
    · exact readByte_writeByte_other hb v m
    · rfl

/-- A device's write, byte by byte: each byte of it that lies in RAM, and no other byte (R146, log entry 13). -/
theorem readByte_deviceBytes (p : Config.Params) (bytes : List Byte) (a b : Nat) {m : Memory} (h : m.wf = true) :
    readByte (deviceBytes p a m bytes) b =
      if a ≤ b ∧ b < a + bytes.length ∧ p.ramBase ≤ b ∧ b < p.ramBase + p.ramSize ∧ b < 2 ^ 32
      then bytes.getD (b - a) 0#8 else readByte m b := by
  induction bytes generalizing a m with
  | nil => exact (if_neg fun ⟨hle, hlt, _⟩ => absurd hlt (Nat.not_lt.mpr hle)).symm
  | cons v rest ih =>
    have hcons : deviceBytes p a m (v :: rest) = deviceBytes p (a + 1) (deviceBytes p a m [v]) rest := rfl
    have hfirst := readByte_deviceBytes_single p v a b h
    rw [hcons, ih (a + 1) (deviceBytes_wf p [v] a h), List.length_cons]
    rcases Nat.lt_trichotomy b a with hlt | rfl | hgt
    · rw [if_neg (by omega), if_neg (by omega), hfirst, if_neg (by omega)]
    · rw [if_neg (by omega), hfirst, Nat.sub_self, List.getD_cons_zero]
      exact if_congr (by omega) rfl rfl
    · rw [hfirst, if_neg (c := b = a ∧ _) (by omega), show b - a = b - (a + 1) + 1 by omega, List.getD_cons_succ]
      exact if_congr (by omega) rfl rfl

theorem agentAct_timer (s : State) : agentAct s .timer = if s.timecmp.toNat ≤ s.time.toNat then post 0x80#32 s else s := by
  simp only [agentAct, timerPending, BitVec.ule, decide_eq_true_eq]

theorem agentAct_timeTo (s : State) (v : DWord) :
    agentAct s (.timeTo v) = if s.time.toNat ≤ v.toNat then { s with time := v } else s := by
  simp only [agentAct, BitVec.ule, decide_eq_true_eq]

theorem interleave_of_cons {s : State} {actions : List AgentAction} {rest : List (List AgentAction)}
    (h : s.interleaved = actions :: rest) :
    interleave s = actions.foldl agentAct { s with interleaved := rest } := by
  rw [interleave, h]

/-- Settles O59: each action is its own record update, and none of them, alone or between events, touches the hart. -/
theorem agentActions : Obligations.AgentActions := by
  intro s bits v n a bytes action
  refine ⟨fun rest hp hid => step_of_agent_turn (machineLegal_of_params hp hid), rfl, agentAct_timer s, rfl,
    agentAct_timeTo s v, rfl, ⟨rfl, fun hwf b => readByte_deviceBytes s.cfg bytes a b hwf⟩, ?frame, interleave_of_nil,
    fun actions rest => interleave_of_cons⟩
  case frame =>
    rintro t (rfl | rfl)
    · have h := agentAct_private s action
      exact ⟨h.sameHart, h.sameRegs, h.pc, agentAct_tlb s action⟩
    · have h := interleave_private s
      exact ⟨h.sameHart, h.sameRegs, h.pc, interleave_tlb s⟩

end Sys2Proof.Machine
end

section
/-! No state stops a legal machine, and the first step after reset (R500, R514, R517). -/

namespace Sys2Proof.Machine

/-! ## Every turn answers a next state -/

/-- Fetch and decode end in a trap or in an instruction, and every instruction answers a next state (R514). -/
theorem runInstruction_answers (s : State) : ∃ t, runInstruction s = .next t := by
  unfold runInstruction
  split
  next e tv s1 _ => exact ⟨_, rfl⟩
  next raw s1 _ =>
    split
    next i _ =>
      obtain ⟨t, ht, -⟩ := exec_answers i s1
      exact ⟨t, ht⟩
    next => exact ⟨_, rfl⟩

theorem hartStep_answers (s : State) : ∃ t, hartStep s = .next t := by
  rcases hartStep_cases s with ⟨-, -, hs⟩ | ⟨n, -, hs⟩ | ⟨-, hs⟩
  · exact ⟨s, hs⟩
  · exact ⟨_, hs⟩
  · obtain ⟨t, ht⟩ := runInstruction_answers { wake s with parked := false }
    exact ⟨rearm t, by rw [hs, ht, rearmOutcome]⟩

/-- Settles O5: a legal machine's turn is the hart's, which ends in a next state, or an agent's action. -/
theorem stepAlwaysAnswers : Obligations.StepAlwaysAnswers := by
  intro s hp hid
  have hlegal := machineLegal_of_params hp hid
  cases ha : s.agenda with
  | nil => exact step_of_empty_agenda hlegal ha ▸ hartStep_answers s
  | cons turn rest =>
    cases turn with
    | hart => exact step_of_hart_turn hlegal ha ▸ hartStep_answers _
    | agent a => exact ⟨_, step_of_agent_turn hlegal ha⟩

/-! ## Reset -/

/-- Settles O3: after reset nothing is posted and the hart is not parked, so its turn makes no event check. -/
theorem firstStepAfterReset : Obligations.FirstStepAfterReset := by
  intro p h m hp hid
  have hlegal : machineLegal (State.resetWith p h m) = true := machineLegal_of_params hp hid
  have hrunning : ¬ ((State.resetWith p h m).parked = true ∧ (State.resetWith p h m).waitEvent = true) := nofun
  refine ⟨rfl, ?_⟩
  calc step (State.resetWith p h m) = hartStep (State.resetWith p h m) := step_of_empty_agenda hlegal rfl
    _ = rearmOutcome (runInstruction { State.resetWith p h m with waitEvent := true }) :=
      hartStep_of_no_check hrunning Bool.noConfusion

end Sys2Proof.Machine
end
